-- ==== Sys2Proof/Word.lean ====
section
/-! DEFINITION. The word types of the RLE-LP core (00_scope.md R6, R12). -/

namespace Sys2Proof

/-- A register, a RunState component, a host data word: `XW = 32` bits (00_scope.md R6). -/
abbrev Word := BitVec 32

/-- An output byte (00_scope.md R12). -/
abbrev Byte := BitVec 8

/-- A symbol: unsigned, 4 bits (00_scope.md R6, R12). -/
abbrev Symbol := BitVec 4

/-- A pass word: `PWW = 16` bits (30_encoding.md R70). -/
abbrev PassWord := BitVec 16

/-- The STEP field of a stepped operation (30_encoding.md R71). -/
abbrev StepIx := BitVec 5

/-- The `-1` sentinel of a lane's `b` (00_scope.md R12). -/
abbrev noLane : Word := -1#32

end Sys2Proof
end

