-- ==== Sys2Proof/Config.lean ====
section
/-! DEFINITION. What an instance of the core fixes (`NMAX`), and the values the spec leaves open.
Every `opaque` below is a free value: nothing in Lean can evaluate it or prove a value of it. -/

namespace Sys2Proof.Config

/-- The parameter `NMAX` of the instance `State.reset` is of: the largest the spec allows (00_scope.md R6).
DESIGN CHOICE, log 1 (D3: "a model may fix NMAX"): `NMAX` itself is carried in State, so that what is stated about
every state is stated about every `NMAX`. -/
def nmax : Nat := 2 ^ 29

/-- `SYM[p]` as the `draw`-th reset left it (93_implementation_defined.md U1). Free value, log 2. -/
opaque freeSymbol : Nat → Nat → Symbol

/-- `OOR[p]` as the `draw`-th reset left it (93_implementation_defined.md U1). Free value, log 2. -/
opaque freeOor : Nat → Nat → Bool

/-- `OUT[d]` as the `draw`-th reset left it (93_implementation_defined.md U2). Free value, log 3. -/
opaque freeOut : Nat → Nat → Byte

/-- `BUF[k][p].a` as the `draw`-th reset left it: draw, bank, lane (93_implementation_defined.md U3). Free value, log 4. -/
opaque freeLaneA : Nat → Nat → Nat → Word

/-- `BUF[k][p].b` as the `draw`-th reset left it: draw, bank, lane (93_implementation_defined.md U3). Free value, log 4. -/
opaque freeLaneB : Nat → Nat → Nat → Word

/-- The scalar RDK or RDW reads back when `N = 0`, so that lane `N - 1` is no lane (40_scan.md R91, R92 state no value
there). Free value, one for each value of State's counter `freeIx`; log 11. -/
opaque freeReadback : Nat → Word

/-- `v mod 0`, which 00_scope.md R16 leaves undefined ("`v mod M` with `M ≥ 1`"). Free value, a function of the operand;
log 12. -/
opaque modByZero : Int → Int

end Sys2Proof.Config
end

