-- ==== Sys2Proof/Syntax.lean ====
section
/-! DEFINITION. The eleven pass operations (30_encoding.md R72), one constructor for each row of the opcode table. -/

namespace Sys2Proof

/-- A pass operation. A stepped one carries its STEP field, whose legal values are 0 to 30 (30_encoding.md R71, R73). -/
inductive Instr
  | rli
  | rls (i : StepIx)
  | sgk
  | scn (i : StepIx)
  | rdk
  | cmp (i : StepIx)
  | sgw
  | rdw
  | exp (i : StepIx)
  | pck
  | fin
  deriving DecidableEq, Repr

end Sys2Proof
end

