-- ==== Sys2Proof/Machine/State.lean ====
section
/-! DEFINITION. The architectural state of the RLE-LP core (10_state.md R20), its reset values (R38), and the reasons a
step can stop. -/

namespace Sys2Proof.Machine

/-- A memory: the cells that something has written since reset, as (index, content) pairs, indexes strictly rising
(`Memory.wf`). An unlisted index has NO VALUE of its own here; what it reads as is said by the accessor of each space
(`State.symCell`, `State.laneAt`, `State.outAt`): the free value drawn at reset. `Memory Byte` is a list of `Host.Cell`. -/
abbrev Memory (α : Type) := List (Nat × α)

/-- A lane's content: the RunState pair `(a, b)` (10_state.md R23). -/
structure Lane where
  a : Word
  b : Word
  deriving DecidableEq, Repr

/-- `EMPTY = (0, -1)` (00_scope.md R12). -/
def Lane.empty : Lane := ⟨0#32, noLane⟩

/-- A cell of `SYM`: the symbol and its out-of-range tag (10_state.md R21). -/
structure SymCell where
  symbol : Symbol
  oor    : Bool
  deriving DecidableEq, Repr

/-- The two RunState banks; `CUR` names the front one (10_state.md R23, R25). -/
inductive BankId
  | bank0
  | bank1
  deriving DecidableEq, Repr

/-- The spaces of the host port (46_sequencer_host.md R158). -/
inductive Space
  | reg
  | sym
  | out
  deriving DecidableEq, Repr

/-- What comes from outside the sequencer, and the sequencer's turn: one entry of the global sequence of atomic events
(00_scope.md R10, 20_memory.md R63). -/
inductive Event
  /-- The sequencer's turn: one `SeqStep` if `BUSY`, else nothing. -/
  | pass
  /-- `HostWrite(space, index, data)` (46_sequencer_host.md R160). -/
  | hostWrite (space : Space) (index : Nat) (data : Word)
  /-- `HostRead(space, index)` (46_sequencer_host.md R161). -/
  | hostRead (space : Space) (index : Nat)
  /-- The reset event (70_reset_and_hazards.md R200). -/
  | reset
  deriving DecidableEq, Repr

/-- The state. The first group is the table of 10_state.md R20; `nmax` is the instance's parameter; the last group is the
model's own. -/
structure State where
  /-- `SYM` and `OOR` (R21). -/
  sym       : Memory SymCell
  /-- `BUF[0]` (R23). -/
  buf0      : Memory Lane
  /-- `BUF[1]` (R23). -/
  buf1      : Memory Lane
  /-- `CUR` (R25). -/
  cur       : BankId
  /-- `OUT` (R22). -/
  out       : Memory Byte
  /-- `N` (R29). -/
  n         : Word
  /-- `MRN` (R30). -/
  mrn       : Word
  /-- `MRW` (R30). -/
  mrw       : Word
  /-- `KEEPCNT` (R31). -/
  keepcnt   : Word
  /-- `REPEATCNT` (R31). -/
  repeatcnt : Word
  /-- `WIDECNT` (R31). -/
  widecnt   : Word
  /-- `MBYTES` (R31). -/
  mbytes    : Word
  /-- `PC` (R32). -/
  pc        : BitVec 8
  /-- `STATUS.BUSY` (R33). -/
  busy      : Bool
  /-- `STATUS.DONE` (R33). -/
  done      : Bool
  /-- `STATUS.CFGERR` (R33). -/
  cfgerr    : Bool
  /-- `STATUS.ERRCODE` (R33). -/
  errcode   : BitVec 4
  /-- The instance's parameter `NMAX`, which `CAP` reads as (R35); nothing writes it (log 1). -/
  nmax      : Nat
  /-- Model's own: the events still to come, in order; when there is none, it is the sequencer's turn (log 6). -/
  inbox     : List Event
  /-- Model's own: the data words that host reads returned, newest first (log 7). -/
  answers   : List Word
  /-- Model's own: pass words a caller supplies in place of `PROG(N)`'s, next first (30_encoding.md R75; log 8). -/
  supplied  : List PassWord
  /-- Model's own: how many reset events have been (log 5). -/
  draw      : Nat
  /-- Model's own: which free scalar comes next (log 17). -/
  freeIx    : Nat
  deriving DecidableEq, Repr

/-- Why the machine stops. Both arise only in states no run of the hardware reaches. -/
inductive Fault
  /-- A pass accesses a lane, a symbol cell or an output byte that does not exist, because `N > NMAX` (10_state.md R21
  to R23). Raised by every pass but FIN. Safe: the machine stops (log 10). -/
  | laneAbsent
  /-- `BUSY` and no pass word at index `PC` of `PROG(N)`, or `N = 0`, which has no program (46_sequencer_host.md R152: it
  "holds whenever BUSY = 1" that there is one). Raised by the sequencer's step. Safe: the machine stops (log 15). -/
  | noPassWord
  deriving DecidableEq, Repr

/-- Why a step gives no meaning. -/
inductive Refusal
  /-- An instruction without a meaning in this model, by its mnemonic; raised by `exec` only. Safe. -/
  | notModelled (mnemonic : String)
  /-- A caller-supplied pass word is illegal (30_encoding.md R75, 93_implementation_defined.md U5: refuse). Raised by the
  sequencer's step. Safe. -/
  | illegalPassWord (w : PassWord)
  /-- A term of `Instr` with STEP 31, which no legal word stands for (30_encoding.md R75). Raised by RLS, SCN, CMP, EXP.
  Safe (log 16). -/
  | illegalStep
  /-- A read of `SYM[b]` with `b` outside `[0, N)` and `b ≠ -1` (42_segmenter.md R112, 93_implementation_defined.md U6:
  refuse). Raised by SGW, EXP, PCK. Safe (log 13). -/
  | symIndexOutOfRange
  deriving DecidableEq, Repr

/-- The values after reset (10_state.md R38), of an instance with parameter `nmax`, at reset event number `draw`; the
memories list nothing, so every cell reads as the free value of that draw. The model's own fields: `inbox`, `answers`
and `supplied` empty, `freeIx` zero (DESIGN CHOICE, logs 6, 7, 8, 17). -/
def State.resetOf (nmax draw : Nat) : State where
  sym       := []
  buf0      := []
  buf1      := []
  cur       := .bank0
  out       := []
  n         := 0#32
  mrn       := 15#32
  mrw       := 4095#32
  keepcnt   := 0#32
  repeatcnt := 0#32
  widecnt   := 0#32
  mbytes    := 0#32
  pc        := 0#8
  busy      := false
  done      := false
  cfgerr    := false
  errcode   := 0#4
  nmax      := nmax
  inbox     := []
  answers   := []
  supplied  := []
  draw      := draw
  freeIx    := 0

/-- The machine right after reset (10_state.md R38). -/
def State.reset : State := State.resetOf Config.nmax 0

end Sys2Proof.Machine
end

