-- ==== Sys2Proof/Machine/Ops.lean ====
section
/-! DEFINITION. The named operations over memories, banks and registers, the frame every pass shares (00_scope.md R14),
and taking and leaving the one exception (60_exceptions.md R181, R185). -/

namespace Sys2Proof.Machine

/-! ## Memories -/

/-- What is listed at an index, if anything is. -/
def Memory.read {α : Type} : Memory α → Nat → Option α
  | [], _ => none
  | (k, v) :: rest, p => if k = p then some v else Memory.read rest p

/-- Write one cell, keeping the indexes rising. -/
def Memory.write {α : Type} : Memory α → Nat → α → Memory α
  | [], p, v => [(p, v)]
  | (k, u) :: rest, p, v =>
    if p < k then (p, v) :: (k, u) :: rest
    else if p = k then (p, v) :: rest
    else (k, u) :: Memory.write rest p v

/-- Write every cell `p < g` with `f p` in one transition (20_memory.md R52); cells at and above `g` keep what they held. -/
def Memory.fill {α : Type} (m : Memory α) (g : Nat) (f : Nat → α) : Memory α :=
  (List.range g).map (fun p => (p, f p)) ++ m.filter (fun c => decide (g ≤ c.1))

/-- The canonical form: indexes strictly rising. (An unlisted index has no value, so no entry equals what it reads as.) -/
def Memory.wf {α : Type} : Memory α → Bool
  | [] => true
  | [_] => true
  | (k, _) :: (l, v) :: rest => decide (k < l) && Memory.wf ((l, v) :: rest)

/-- Every listed index exists in a space of the given depth (20_memory.md R50). -/
def Memory.within {α : Type} (m : Memory α) (depth : Nat) : Bool := m.all fun c => decide (c.1 < depth)

/-! ## Banks, symbols, output bytes -/

/-- `1 - CUR` (10_state.md R25). -/
def BankId.other : BankId → BankId
  | .bank0 => .bank1
  | .bank1 => .bank0

/-- The bank's number, 0 or 1. -/
def BankId.number : BankId → Nat
  | .bank0 => 0
  | .bank1 => 1

/-- `BUF[k]`. -/
def State.bank (s : State) : BankId → Memory Lane
  | .bank0 => s.buf0
  | .bank1 => s.buf1

/-- Lane `p` of `BUF[k]`: what was written, or what the last reset left there (U3). -/
def State.laneAt (s : State) (k : BankId) (p : Nat) : Lane :=
  (Memory.read (s.bank k) p).getD ⟨Config.freeLaneA s.draw k.number p, Config.freeLaneB s.draw k.number p⟩

/-- `F[p]`, lane `p` of the front bank (00_scope.md R13). -/
def State.front (s : State) (p : Nat) : Lane := s.laneAt s.cur p

/-- Lane `p` of the back bank `BUF[1 - CUR]`. -/
def State.back (s : State) (p : Nat) : Lane := s.laneAt s.cur.other p

/-- Cell `p` of the symbol memory: what was written, or what the last reset left there (U1). -/
def State.symCell (s : State) (p : Nat) : SymCell :=
  (Memory.read s.sym p).getD ⟨Config.freeSymbol s.draw p, Config.freeOor s.draw p⟩

/-- `SYM[p]` (00_scope.md R13). -/
def State.symAt (s : State) (p : Nat) : Symbol := (s.symCell p).symbol

/-- `OOR[p]` (10_state.md R21). -/
def State.oorAt (s : State) (p : Nat) : Bool := (s.symCell p).oor

/-- `OUT[d]`: what was written, or what the last reset left there (U2). -/
def State.outAt (s : State) (d : Nat) : Byte := (Memory.read s.out d).getD (Config.freeOut s.draw d)

/-- `G = 2N`, the number of lanes of the dense grid (00_scope.md R6). -/
def State.lanes (s : State) : Nat := 2 * s.n.toNat

/-! ## Updates -/

/-- `pc <- PC + 1`, the end of every pass (46_sequencer_host.md R152). The register has 8 bits; the canonical program
never passes 152 (10_state.md R32; DEDUCED beyond 255, log 14). -/
def State.advancePc (s : State) : State := { s with pc := s.pc + 1#8 }

/-- `swap`: `CUR <- 1 - CUR` (00_scope.md R13). -/
def State.swapBanks (s : State) : State := { s with cur := s.cur.other }

/-- `B[p] <- f p` for every lane `0 ≤ p < G` of the back bank (00_scope.md R13, R14). -/
def State.fillBack (s : State) (f : Nat → Lane) : State :=
  { s with
    buf0 := match s.cur with
      | .bank0 => s.buf0
      | .bank1 => Memory.fill s.buf0 s.lanes f
    buf1 := match s.cur with
      | .bank0 => Memory.fill s.buf1 s.lanes f
      | .bank1 => s.buf1 }

/-- `OUT[d] <- f d` for every `0 ≤ d < G` (45_packer.md R140). -/
def State.fillOut (s : State) (f : Nat → Byte) : State := { s with out := Memory.fill s.out s.lanes f }

/-- Write cell `p` of the symbol memory (46_sequencer_host.md R160). -/
def State.writeSym (s : State) (p : Nat) (c : SymCell) : State := { s with sym := Memory.write s.sym p c }

/-- `KEEPCNT` and `REPEATCNT`, written together (40_scan.md R91). -/
def State.setKeepCounts (s : State) (keep rep : Word) : State := { s with keepcnt := keep, repeatcnt := rep }

/-- `WIDECNT` (40_scan.md R92). -/
def State.setWideCount (s : State) (w : Word) : State := { s with widecnt := w }

/-- `MBYTES` (45_packer.md R141). -/
def State.setMbytes (s : State) (m : Word) : State := { s with mbytes := m }

/-- The free counter moves on (log 17). -/
def State.nextFree (s : State) : State := { s with freeIx := s.freeIx + 1 }

/-! ## The frame of a pass -/

/-- Every lane, symbol cell and output byte the passes index by `0 ≤ p < G` exists: `N ≤ NMAX` (10_state.md R21 to R23). -/
def State.lanesExist (s : State) : Bool := decide (s.n.toNat ≤ s.nmax)

/-- Run a pass whose lanes exist; else the access is to nothing (log 10). -/
def State.guardLanes (s : State) (k : Host.Outcome State Fault Refusal) : Host.Outcome State Fault Refusal :=
  if s.lanesExist then k else .fault .laneAbsent

/-- The state a buffer pass leaves: every lane `p < G` of the back bank written, banks swapped, `PC` advanced
(00_scope.md R14). -/
def State.bufferNext (s : State) (f : Nat → Lane) : State := ((s.fillBack f).swapBanks).advancePc

/-- A source-domain pass computes the lanes below `N` and writes EMPTY at and above (20_memory.md R54). -/
def State.sourceLane (s : State) (f : Nat → Lane) (p : Nat) : Lane := if p < s.n.toNat then f p else Lane.empty

/-- The value a scalar readback takes from lane `N - 1` of the front bank (40_scan.md R91, R92). With `N = 0` there is
no lane `N - 1` and the spec states no value: a free one (log 11). A lane beyond the bank's depth does not exist (log 10). -/
def State.readback (s : State) (k : Word → State → State) : Host.Outcome State Fault Refusal :=
  if s.n = 0#32 then .next (k (Config.freeReadback s.freeIx) s.nextFree)
  else if s.n.toNat - 1 < 2 * s.nmax then .next (k (s.front (s.n.toNat - 1)).a s)
  else .fault .laneAbsent

/-! ## The exception -/

/-- `raise CfgError(code)`: `CFGERR <- 1`, `ERRCODE <- code`, and no other state changes; nothing is saved and control
goes nowhere (60_exceptions.md R181, R184). -/
def State.raiseCfgError (s : State) (code : BitVec 4) : State := { s with cfgerr := true, errcode := code }

/-- What a START that is not ignored clears first: `DONE`, `CFGERR`, `ERRCODE` (46_sequencer_host.md R162). There is no
return instruction: this and reset are how the error state is left (60_exceptions.md R185). -/
def State.clearResult (s : State) : State := { s with done := false, cfgerr := false, errcode := 0#4 }

/-- An accepted START: `BUSY <- 1`, `pc <- 0`, `CUR <- 0` (46_sequencer_host.md R162). -/
def State.beginEncode (s : State) : State := { s with busy := true, pc := 0#8, cur := .bank0 }

end Sys2Proof.Machine
end

