-- ==== Sys2Proof/Machine/Flags.lean ====
section
/-! DEFINITION. The STATUS flags (10_state.md R33): the word a host reads, and who sets and clears which. The lane
datapath has no condition codes (R33), so nothing else computes a flag. -/

namespace Sys2Proof.Machine

/-- The STATUS word: 20 zeros, ERRCODE, 5 zeros, CFGERR, DONE, BUSY (46_sequencer_host.md R161). -/
def State.statusWord (s : State) : Word :=
  0#20 ++ s.errcode ++ 0#5 ++ BitVec.ofBool s.cfgerr ++ BitVec.ofBool s.done ++ BitVec.ofBool s.busy

/-- What FIN does to the flags: `BUSY <- 0`, `DONE <- 1` (45_packer.md R141). -/
def State.finishFlags (s : State) : State := { s with busy := false, done := true }

/-- What ABORT does to the flags: `BUSY <- 0` (46_sequencer_host.md R164). -/
def State.abandon (s : State) : State := { s with busy := false }

end Sys2Proof.Machine
end

