-- ==== Sys2Proof/WellFormed.lean ====
section
/-! DEFINITION. Which terms of `Instr` are operations of the hardware (30_encoding.md R71, R75). -/

namespace Sys2Proof

/-- A legal step index: 0 to 30 (30_encoding.md R71); 31 is illegal because `2^31` is no signed lane index (R75). -/
def legalStep (i : StepIx) : Bool := i != 31#5

/-- The check of a term of `Instr`: a stepped operation has a legal step index. -/
def Instr.wellFormed : Instr → Bool
  | .rli => true
  | .rls i => legalStep i
  | .sgk => true
  | .scn i => legalStep i
  | .rdk => true
  | .cmp i => legalStep i
  | .sgw => true
  | .rdw => true
  | .exp i => legalStep i
  | .pck => true
  | .fin => true

end Sys2Proof
end

