-- ==== Sys2Proof/Machine/Operands.lean ====
section
/-! DEFINITION. Every operand form: the step offset `2^i`, the neighbour reads, the gather of `SYM[b]`, and the lane
arithmetic the passes share (00_scope.md R8, R11, R16; 20_memory.md R51, R53). -/

namespace Sys2Proof.Machine

/-- The offset of a stepped operation, `2^i` (30_encoding.md R73). -/
def offset (i : StepIx) : Nat := 2 ^ i.toNat

/-- Run a stepped pass with a legal step index; STEP 31 has no meaning (30_encoding.md R75; log 16). -/
def guardStep (i : StepIx) (k : Host.Outcome State Fault Refusal) : Host.Outcome State Fault Refusal :=
  if legalStep i then k else .refused .illegalStep

/-- `isWide(s)`: `s = 0` or `s = 15` (00_scope.md R8). -/
def isWide (x : Symbol) : Bool := x == 0#4 || x == 15#4

/-- `maxRun(s)`: `MRW` if the symbol is wide, else `MRN` (00_scope.md R8). -/
def State.maxRun (s : State) (x : Symbol) : Word := if isWide x then s.mrw else s.mrn

/-- A lane content is valid (filled) when `b ≠ -1` (00_scope.md R12). -/
def Lane.valid (c : Lane) : Bool := c.b != noLane

/-- `v mod m`, the non-negative remainder of a signed `v` (00_scope.md R16). With `m = 0` the spec defines none: a free
value (log 12). -/
def remainder (v m : Word) : Int := if m = 0#32 then Config.modByZero v.toInt else v.toInt % (m.toNat : Int)

/-- `SYM[b]` of a content's `b`, read as a lane index. -/
def State.symOf (s : State) (b : Word) : Symbol := s.symAt b.toNat

/-- `b` is the index of a symbol of this encode: signed, in `[0, N)` (93_implementation_defined.md U6). -/
def State.symIndexOk (s : State) (b : Word) : Bool := decide (0 ≤ b.toInt) && decide (b.toInt < (s.n.toNat : Int))

/-- Every gather of the front lanes below `bound` is in range: their `b` is `-1` or a symbol's index. -/
def State.gatherOk (s : State) (bound : Nat) : Bool :=
  (List.range bound).all fun p => !(s.front p).valid || s.symIndexOk (s.front p).b

/-- Run a pass that reads `SYM[F[p].b]` for the lanes below `bound`; an index outside `[0, N)` is refused
(42_segmenter.md R112, 93_implementation_defined.md U6; log 13). -/
def State.guardGather (s : State) (bound : Nat) (k : Host.Outcome State Fault Refusal) :
    Host.Outcome State Fault Refusal :=
  s.guardLanes (if s.gatherOk bound then k else .refused .symIndexOutOfRange)

/-- `dispC(c) = c.b - c.a + 1` (43_compactor.md R120). -/
def dispC (c : Lane) : Word := c.b - c.a + 1#32

/-- `dispE(c) = c.a - w(c)`, `w(c) = 1` if `SYM[c.b]` is wide (44_expander.md R130). -/
def State.dispE (s : State) (c : Lane) : Word := c.a - (if isWide (s.symOf c.b) then 1#32 else 0#32)

/-- `bit(v, i)` of the two's-complement representation (00_scope.md R11). -/
def bitOf (v : Word) (i : StepIx) : Bool := v.getLsbD i.toNat

/-- `nextSrc(d)`: the source index of the chunk in slot `d`, or `N` when there is none (45_packer.md R140). -/
def State.nextSrc (s : State) (d : Nat) : Word :=
  if decide (d < s.lanes) && (s.front d).valid then (s.front d).b else s.n

/-- One step of a routing network: a pulled content wins over a kept one; with neither the lane is EMPTY
(43_compactor.md R120, 44_expander.md R130; 92_eei_decisions.md D10). -/
def route (pull keep : Bool) (pulled kept : Lane) : Lane :=
  if pull then pulled else if keep then kept else Lane.empty

end Sys2Proof.Machine
end

