-- ==== Sys2Proof/Machine/Packer.lean ====
section
/-! DEFINITION. The byte packer PCK and the output sizing FIN (45_packer.md). -/

namespace Sys2Proof.Machine

/-- `(sym << 4) | ((len >> 8) & 0xF)`, the first byte of a wide chunk (20_memory.md R56). -/
def wideFirstByte (x : Symbol) (len : Word) : Byte := x ++ len.extractLsb' 8 4

/-- `len & 0xFF`, the second byte of a wide chunk (20_memory.md R56). -/
def wideSecondByte (len : Word) : Byte := len.extractLsb' 0 8

/-- `(sym << 4) | (len & 0xF)`, the byte of a narrow chunk (20_memory.md R56). -/
def narrowByte (x : Symbol) (len : Word) : Byte := x ++ len.extractLsb' 0 4

/-- Slot `d` is the second byte of a wide chunk, its own `b` being `-1` (45_packer.md R140; 92_eei_decisions.md D11). -/
def State.secondOfWide (s : State) (d : Nat) : Bool :=
  decide (1 ≤ d) && ((s.front (d - 1)).valid && isWide (s.symOf (s.front (d - 1)).b))

/-- `OUT[d]` as `PCK` writes it (45_packer.md R140). A chunk's length is always an index difference (R142). -/
def State.packByte (s : State) (d : Nat) : Byte :=
  if (s.front d).valid then
    if isWide (s.symOf (s.front d).b) then
      wideFirstByte (s.symOf (s.front d).b) (s.nextSrc (d + 2) - (s.front d).b)
    else narrowByte (s.symOf (s.front d).b) (s.nextSrc (d + 1) - (s.front d).b)
  else if s.secondOfWide d then wideSecondByte (s.nextSrc (d + 1) - (s.front (d - 1)).b)
  else 0x00#8

/-- `PCK` (45_packer.md R140): writes `OUT[0..G)`; no lane written, no swap. -/
def execPck (s : State) : Host.Outcome State Fault Refusal :=
  s.guardGather s.lanes (.next (s.fillOut s.packByte).advancePc)

/-- `FIN` (45_packer.md R141): `MBYTES <- KEEPCNT + WIDECNT`, `BUSY <- 0`, `DONE <- 1`. -/
def execFin (s : State) : Host.Outcome State Fault Refusal :=
  .next ((s.setMbytes (s.keepcnt + s.widecnt)).finishFlags).advancePc

end Sys2Proof.Machine
end

