-- ==== Sys2Proof/Machine/Routing.lean ====
section
/-! DEFINITION. The routing networks: the stream compactor CMP (43_compactor.md) and the stream expander EXP
(44_expander.md). -/

namespace Sys2Proof.Machine

/-- Lane `x < N` of `CMP i` (43_compactor.md R120): contents whose displacement has bit `i` set move left by `2^i`. -/
def State.cmpLane (s : State) (i : StepIx) (x : Nat) : Lane :=
  route
    (decide (x + offset i < s.n.toNat) && ((s.front (x + offset i)).valid && bitOf (dispC (s.front (x + offset i))) i))
    ((s.front x).valid && !bitOf (dispC (s.front x)) i)
    (s.front (x + offset i)) (s.front x)

/-- `CMP i` (43_compactor.md R120). -/
def execCmp (i : StepIx) (s : State) : Host.Outcome State Fault Refusal :=
  guardStep i (s.guardLanes (.next (s.bufferNext (s.sourceLane (s.cmpLane i)))))

/-- Lane `x < G` of `EXP i` (44_expander.md R130): contents whose displacement has bit `i` set move right by `2^i`. -/
def State.expLane (s : State) (i : StepIx) (x : Nat) : Lane :=
  route
    (decide (offset i ≤ x) && ((s.front (x - offset i)).valid && bitOf (s.dispE (s.front (x - offset i))) i))
    ((s.front x).valid && !bitOf (s.dispE (s.front x)) i)
    (s.front (x - offset i)) (s.front x)

/-- `EXP i` (44_expander.md R130): the whole dense domain, `G = 2N` lanes. -/
def execExp (i : StepIx) (s : State) : Host.Outcome State Fault Refusal :=
  guardStep i (s.guardGather s.lanes (.next (s.bufferNext (s.expLane i))))

end Sys2Proof.Machine
end

