-- ==== Sys2Proof/Machine/RunLength.lean ====
section
/-! DEFINITION. The run-length detector: RLI, RLS (41_runlength.md). -/

namespace Sys2Proof.Machine

/-- `RLI` (41_runlength.md R100): `(1, 0)` below `N`, EMPTY above. -/
def execRli (s : State) : Host.Outcome State Fault Refusal :=
  s.guardLanes (.next (s.bufferNext (s.sourceLane fun _ => ⟨1#32, 0#32⟩)))

/-- Lane `p < N` of `RLS i` (41_runlength.md R101); the guard `F[p].a == 2^i` is an equality (R103). -/
def State.rlsLane (s : State) (i : StepIx) (p : Nat) : Lane :=
  if offset i ≤ p ∧ s.symAt (p - offset i) = s.symAt p ∧ (s.front p).a = BitVec.ofNat 32 (offset i) then
    ⟨(s.front p).a + (s.front (p - offset i)).a, (s.front p).b⟩
  else s.front p

/-- `RLS i` (41_runlength.md R101). -/
def execRls (i : StepIx) (s : State) : Host.Outcome State Fault Refusal :=
  guardStep i (s.guardLanes (.next (s.bufferNext (s.sourceLane (s.rlsLane i)))))

end Sys2Proof.Machine
end

