-- ==== Sys2Proof/Machine/Scan.lean ====
section
/-! DEFINITION. The scan primitive and the scalar readbacks: SCN, RDK, RDW (40_scan.md). -/

namespace Sys2Proof.Machine

/-- Lane `p < N` of `SCN i` (40_scan.md R90). -/
def State.scnLane (s : State) (i : StepIx) (p : Nat) : Lane :=
  if offset i ≤ p then ⟨(s.front p).a + (s.front (p - offset i)).a, (s.front p).b⟩ else s.front p

/-- `SCN i` (40_scan.md R90). -/
def execScn (i : StepIx) (s : State) : Host.Outcome State Fault Refusal :=
  guardStep i (s.guardLanes (.next (s.bufferNext (s.sourceLane (s.scnLane i)))))

/-- `RDK` (40_scan.md R91): `KEEPCNT <- F[N-1].a`, `REPEATCNT <- N - F[N-1].a`; no bank written, no swap. -/
def execRdk (s : State) : Host.Outcome State Fault Refusal :=
  s.readback fun v t => (t.setKeepCounts v (t.n - v)).advancePc

/-- `RDW` (40_scan.md R92): `WIDECNT <- F[N-1].a`; no bank written, no swap. -/
def execRdw (s : State) : Host.Outcome State Fault Refusal :=
  s.readback fun v t => (t.setWideCount v).advancePc

end Sys2Proof.Machine
end

