-- ==== Sys2Proof/Machine/Segmenter.lean ====
section
/-! DEFINITION. The run segmenter: SGK, SGW (42_segmenter.md). -/

namespace Sys2Proof.Machine

/-- Lane `p < N` of `SGK` (42_segmenter.md R110). -/
def State.sgkLane (s : State) (p : Nat) : Lane :=
  if remainder ((s.front p).a - 1#32) (s.maxRun (s.symAt p)) = 0 then ⟨1#32, BitVec.ofNat 32 p⟩ else Lane.empty

/-- `SGK` (42_segmenter.md R110). -/
def execSgk (s : State) : Host.Outcome State Fault Refusal :=
  s.guardLanes (.next (s.bufferNext (s.sourceLane s.sgkLane)))

/-- Lane `p < N` of `SGW`: the class of the slot's OWN source symbol (42_segmenter.md R112, R113). -/
def State.sgwLane (s : State) (p : Nat) : Lane :=
  if (s.front p).valid then ⟨if isWide (s.symOf (s.front p).b) then 1#32 else 0#32, (s.front p).b⟩ else Lane.empty

/-- `SGW` (42_segmenter.md R112). -/
def execSgw (s : State) : Host.Outcome State Fault Refusal :=
  s.guardGather s.n.toNat (.next (s.bufferNext (s.sourceLane s.sgwLane)))

end Sys2Proof.Machine
end

