-- ==== Sys2Proof/Machine/Dispatch.lean ====
section
/-! DEFINITION. The dispatch of a decoded pass operation to its meaning (30_encoding.md R72). -/

namespace Sys2Proof.Machine

def exec (i : Instr) (s : State) : Host.Outcome State Fault Refusal :=
  match i with
  | .rli => Sys2Proof.Machine.execRli s
  | .rls k => Sys2Proof.Machine.execRls k s
  | .sgk => Sys2Proof.Machine.execSgk s
  | .scn k => Sys2Proof.Machine.execScn k s
  | .rdk => Sys2Proof.Machine.execRdk s
  | .cmp k => Sys2Proof.Machine.execCmp k s
  | .sgw => Sys2Proof.Machine.execSgw s
  | .rdw => Sys2Proof.Machine.execRdw s
  | .exp k => Sys2Proof.Machine.execExp k s
  | .pck => Sys2Proof.Machine.execPck s
  | .fin => Sys2Proof.Machine.execFin s

end Sys2Proof.Machine
end

