-- ==== Sys2Proof/Machine/HostPort.lean ====
section
/-! DEFINITION. The host port (46_sequencer_host.md R158 to R164), the configuration check (60_exceptions.md R181), and
the reset event (70_reset_and_hazards.md R200). -/

namespace Sys2Proof.Machine

/-- Some lane `p < N` was last written with a value above 15 (60_exceptions.md R181, cause 4). -/
def State.badSymbol (s : State) : Bool := (List.range s.n.toNat).any fun p => s.oorAt p

/-- A maximum run length is outside `[1, hi]` (60_exceptions.md R181, cause 3). -/
def runParamBad (v : Word) (hi : Nat) : Bool := v == 0#32 || decide (hi < v.toNat)

/-- `CfgCheck()` (60_exceptions.md R181): 0, or the first failing cause. -/
def State.cfgCheck (s : State) : BitVec 4 :=
  if s.n = 0#32 then 1#4
  else if s.nmax < s.n.toNat then 2#4
  else if runParamBad s.mrn 15 then 3#4
  else if runParamBad s.mrw 4095 then 3#4
  else if s.badSymbol then 4#4
  else 0#4

/-- START (46_sequencer_host.md R162). -/
def State.start (s : State) : State :=
  if s.busy then s
  else if s.cfgCheck = 0#4 then s.clearResult.beginEncode
  else s.clearResult.raiseCfgError s.cfgCheck

/-- ABORT (46_sequencer_host.md R164). -/
def State.abort (s : State) : State := if s.busy then s.abandon else s

/-- `Command(w)`: bit 1 is ABORT, whatever bit 0 is; else bit 0 is START; bits 31:2 are ignored (10_state.md R34,
46_sequencer_host.md R162, R164). -/
def State.command (s : State) (w : Word) : State :=
  if w.getLsbD 1 then s.abort else if w.getLsbD 0 then s.start else s

/-- `HostWrite` to space REG (46_sequencer_host.md R160). -/
def State.writeReg (s : State) (index : Nat) (w : Word) : State :=
  match index with
  | 0 => s.command w
  | 2 => if s.busy then s else { s with n := w }
  | 3 => if s.busy then s else { s with mrn := w }
  | 4 => if s.busy then s else { s with mrw := w }
  | _ => s

/-- What a write of `w` leaves in a cell of `SYM`: `w[3:0]`, and whether `w[31:4]` is not zero (46_sequencer_host.md R160). -/
def symCellOf (w : Word) : SymCell := ⟨w.extractLsb' 0 4, w.extractLsb' 4 28 != 0#28⟩

/-- `HostWrite(space, index, w)` (46_sequencer_host.md R160, R163). -/
def State.hostWrite (s : State) (space : Space) (index : Nat) (w : Word) : State :=
  match space with
  | .reg => s.writeReg index w
  | .sym => if !s.busy && decide (index < s.nmax) then s.writeSym index (symCellOf w) else s
  | .out => s

/-- `HostRead` of space REG (46_sequencer_host.md R161). -/
def State.readReg (s : State) (index : Nat) : Word :=
  match index with
  | 1 => s.statusWord
  | 2 => s.n
  | 3 => s.mrn
  | 4 => s.mrw
  | 5 => s.keepcnt
  | 6 => s.repeatcnt
  | 7 => s.widecnt
  | 8 => s.mbytes
  | 9 => s.pc.setWidth 32
  | 10 => BitVec.ofNat 32 s.nmax
  | _ => 0#32

/-- The word a read of cell `p` of `SYM` returns: 27 zeros, OOR, SYM (46_sequencer_host.md R161). -/
def SymCell.word (c : SymCell) : Word := 0#27 ++ BitVec.ofBool c.oor ++ c.symbol

/-- `HostRead(space, index)` (46_sequencer_host.md R161, R163). -/
def State.hostRead (s : State) (space : Space) (index : Nat) : Word :=
  match space with
  | .reg => s.readReg index
  | .sym => if index < s.nmax then (s.symCell index).word else 0#32
  | .out => if index < 2 * s.nmax then (s.outAt index).setWidth 32 else 0#32

/-- The reset event (70_reset_and_hazards.md R200): every piece of state at its value of 10_state.md R38, the memories
drawn afresh. What is still to come from the host, what it has been told, and the free counter are no state of the core
and stay (log 18). -/
def State.resetEvent (s : State) : State :=
  { State.resetOf s.nmax (s.draw + 1) with inbox := s.inbox, answers := s.answers, freeIx := s.freeIx }

/-- One host transaction: a write, or a read, whose data word goes to the model's `answers`; no read changes any other
state (46_sequencer_host.md R161). -/
def State.recordRead (s : State) (space : Space) (index : Nat) : State :=
  { s with answers := s.hostRead space index :: s.answers }

end Sys2Proof.Machine
end

