-- ==== Sys2Proof/Decode.lean ====
section
/-! DEFINITION. The pass-word decoder (30_encoding.md R74), total on every 16-bit word and rejecting by name (R75), and
the encoder, written from the opcode map (R72). -/

namespace Sys2Proof

/-- Why a pass word is illegal (30_encoding.md R75). -/
inductive IllegalWord
  /-- `OP` is `0x0` or `0xC` to `0xF`. -/
  | reservedOp
  /-- A non-zero `ZERO` field. -/
  | nonzeroZero
  /-- A stepped word with `STEP = 31`. -/
  | stepThirtyOne
  deriving DecidableEq, Repr

/-- What the decoder reads from a pass word. -/
inductive Decoded
  | instr (i : Instr)
  | illegal (why : IllegalWord)
  deriving DecidableEq, Repr

/-- `PW[15:12]` (30_encoding.md R71). -/
def opField (w : PassWord) : BitVec 4 := w.extractLsb' 12 4

/-- `PW[11:0]`, the ZERO field of format U (30_encoding.md R71). -/
def zeroFieldU (w : PassWord) : BitVec 12 := w.extractLsb' 0 12

/-- `PW[11:5]`, the ZERO field of format S (30_encoding.md R71). -/
def zeroFieldS (w : PassWord) : BitVec 7 := w.extractLsb' 5 7

/-- `PW[4:0]` (30_encoding.md R71). -/
def stepField (w : PassWord) : StepIx := w.extractLsb' 0 5

/-- The checks of format U (30_encoding.md R74). -/
def decodeU (w : PassWord) (i : Instr) : Decoded :=
  if zeroFieldU w = 0#12 then .instr i else .illegal .nonzeroZero

/-- The checks of format S (30_encoding.md R74). -/
def decodeS (w : PassWord) (mk : StepIx → Instr) : Decoded :=
  if zeroFieldS w = 0#7 then
    if legalStep (stepField w) then .instr (mk (stepField w)) else .illegal .stepThirtyOne
  else .illegal .nonzeroZero

/-- `decode(PW)` (30_encoding.md R74): `OP` alone selects the operation and its format. -/
def decode (w : PassWord) : Decoded :=
  match (opField w).toNat with
  | 0x1 => decodeU w .rli
  | 0x2 => decodeS w .rls
  | 0x3 => decodeU w .sgk
  | 0x4 => decodeS w .scn
  | 0x5 => decodeU w .rdk
  | 0x6 => decodeS w .cmp
  | 0x7 => decodeU w .sgw
  | 0x8 => decodeU w .rdw
  | 0x9 => decodeS w .exp
  | 0xA => decodeU w .pck
  | 0xB => decodeU w .fin
  | _ => .illegal .reservedOp

/-- A format U word: `OP`, then twelve zeros (30_encoding.md R71). -/
def wordU (op : BitVec 4) : PassWord := op ++ 0#12

/-- A format S word: `OP`, seven zeros, `STEP` (30_encoding.md R71). -/
def wordS (op : BitVec 4) (i : StepIx) : PassWord := op ++ 0#7 ++ i

/-- The pass word of an operation (30_encoding.md R72). -/
def encode : Instr → PassWord
  | .rli => wordU 0x1#4
  | .rls i => wordS 0x2#4 i
  | .sgk => wordU 0x3#4
  | .scn i => wordS 0x4#4 i
  | .rdk => wordU 0x5#4
  | .cmp i => wordS 0x6#4 i
  | .sgw => wordU 0x7#4
  | .rdw => wordU 0x8#4
  | .exp i => wordS 0x9#4 i
  | .pck => wordU 0xA#4
  | .fin => wordU 0xB#4

/-- The pass word that stands for `nbits` bits numbered as the opcode table numbers them: bit 0 the least significant of
the one 16-bit word; a pass word is held whole, so no byte order arises (20_memory.md R57). None where a bit at or above
16 is set: there is one length only (30_encoding.md R70). -/
def tableWord (nbits w : Nat) : Option PassWord :=
  if w % 2 ^ nbits < 2 ^ 16 then some (BitVec.ofNat 16 (w % 2 ^ nbits)) else none

/-- The instruction the decoder reads from the opcode table's bits. -/
def decodeTableWord (nbits w : Nat) : Option Instr :=
  match tableWord nbits w with
  | none => none
  | some pw =>
    match decode pw with
    | .instr i => some i
    | .illegal _ => none

end Sys2Proof
end

