-- ==== Sys2Proof/Machine/Sequencer.lean ====
section
/-! DEFINITION. The pass program `PROG(N)` (46_sequencer_host.md R151), and the fetch of the next pass word (R152). -/

namespace Sys2Proof.Machine

/-- The least `k ≥ from` with `2^k ≥ n`, looked for in at most `fuel` steps. -/
def clog2From (n : Nat) : Nat → Nat → Nat
  | 0, k => k
  | fuel + 1, k => if n ≤ 2 ^ k then k else clog2From n fuel (k + 1)

/-- `clog2(n)`: the least `k ≥ 0` with `2^k ≥ n` (00_scope.md R7). -/
def clog2 (n : Nat) : Nat := clog2From n n 0

/-- The words `base + i` for `i = 0, …, l - 1` (46_sequencer_host.md R151, ascending stages). -/
def stageUp (base : PassWord) (l : Nat) : List PassWord := (List.range l).map fun i => base + BitVec.ofNat 16 i

/-- The words `base + (l - 1 - k)` for `k = 0, …, l - 1` (46_sequencer_host.md R151, the descending stage). -/
def stageDown (base : PassWord) (l : Nat) : List PassWord :=
  (List.range l).map fun k => base + BitVec.ofNat 16 (l - 1 - k)

/-- The canonical pass program for `LOGN = l` (46_sequencer_host.md R151). -/
def progOf (l : Nat) : List PassWord :=
  [0x1000#16] ++ stageUp 0x2000#16 l ++ [0x3000#16] ++ stageUp 0x4000#16 l ++ [0x5000#16] ++ stageUp 0x6000#16 l
    ++ [0x7000#16] ++ stageUp 0x4000#16 l ++ [0x8000#16] ++ stageDown 0x9000#16 l ++ [0xA000#16, 0xB000#16]

/-- `PROG(N)[PC]`; `N = 0` has no program (`clog2(n)` is for `n ≥ 1`, 00_scope.md R7; log 15). -/
def State.progWord (s : State) : Option PassWord :=
  if s.n = 0#32 then none else (progOf (clog2 s.n.toNat))[s.pc.toNat]?

/-- The pass word of the next sequencer step: a caller-supplied one if there is one (30_encoding.md R75; log 8), else
`PROG(N)[PC]` (46_sequencer_host.md R152). -/
def State.fetchWord (s : State) : Option PassWord :=
  match s.supplied with
  | w :: _ => some w
  | [] => s.progWord

/-- A caller-supplied word is used once. -/
def State.dropSupplied (s : State) : State := { s with supplied := s.supplied.tail }

/-- A caller supplies the word of the very next step and the sequencer has the turn, busy (log 8). -/
def State.supplyWord (s : State) (w : PassWord) : State :=
  { s with busy := true, inbox := .pass :: s.inbox, supplied := w :: s.supplied }

end Sys2Proof.Machine
end

