-- ==== Sys2Proof/Machine/Transition.lean ====
section
/-! DEFINITION. One transition of the machine: the next event of the global sequence of passes and host transactions
(00_scope.md R10, 20_memory.md R63). -/

namespace Sys2Proof.Machine

/-- `SeqStep` (46_sequencer_host.md R152), for a busy sequencer: fetch, decode, execute. An illegal word is refused
(30_encoding.md R75). -/
def State.seqStep (s : State) : Host.Outcome State Fault Refusal :=
  match s.fetchWord with
  | none => .fault .noPassWord
  | some w =>
    match decode w with
    | .illegal _ => .refused (.illegalPassWord w)
    | .instr i => exec i s.dropSupplied

/-- The sequencer's turn: it is idle, and does nothing, while `BUSY = 0` (46_sequencer_host.md R150; log 9). -/
def State.seqTurn (s : State) : Host.Outcome State Fault Refusal := if s.busy then s.seqStep else .next s

/-- One event (00_scope.md R10). -/
def State.event (e : Event) (s : State) : Host.Outcome State Fault Refusal :=
  match e with
  | .pass => s.seqTurn
  | .hostWrite space index w => .next (s.hostWrite space index w)
  | .hostRead space index => .next (s.recordRead space index)
  | .reset => .next s.resetEvent

/-- The next event is the schedule's; with none left it is the sequencer's turn (log 6). -/
def State.transition (s : State) : Host.Outcome State Fault Refusal :=
  match s.inbox with
  | [] => s.seqTurn
  | e :: rest => State.event e { s with inbox := rest }

end Sys2Proof.Machine
end

