-- ==== Sys2Proof/Machine/Step.lean ====
section
/-! DEFINITION. One step of the machine, and the placing of a pass word where the next step fetches it. -/

namespace Sys2Proof.Machine

/-- One step: one pass operation or one host transaction (00_scope.md R10). -/
def step (s : State) : Host.Outcome State Fault Refusal := s.transition

/-- `s` with the opcode table's word supplied as the pass word of the very next step, the sequencer busy and on turn
(log 8). Bits that no 16-bit word has place nothing. -/
def State.withFetchWord (s : State) (nbits w : Nat) : State :=
  match tableWord nbits w with
  | some pw => s.supplyWord pw
  | none => s

end Sys2Proof.Machine
end

