-- ==== Sys2Proof/Machine/Reference.lean ====
section
/-! DEFINITION. The spec's sequential reference `RLEREF` (46_sequencer_host.md R156) and its decoder oracle
(95_test_vectors.md section 2), the running of a list of pass operations, and the
lane order of a 2-D host array (20_memory.md R58). Specification devices: the hardware has
none of them. -/

namespace Sys2Proof.Machine

/-- The maximal runs of a symbol sequence, left to right, each with its length (the outer loop of `RLEREF`, R156). -/
def maximalRuns : List Symbol → List (Symbol × Nat)
  | [] => []
  | x :: xs =>
    match maximalRuns xs with
    | [] => [(x, 1)]
    | (y, k) :: more => if x = y then (y, k + 1) :: more else (x, 1) :: (y, k) :: more

/-- A run of `l` lanes cut into chunks of at most `m` (the inner loop of `RLEREF`, R156); `fuel` bounds the chunks. -/
def cutRun (m : Nat) : Nat → Nat → List Nat
  | 0, _ => []
  | fuel + 1, l => if l = 0 then [] else min m l :: cutRun m fuel (l - min m l)

/-- The longest chunk of a symbol (00_scope.md R8). -/
def longest (mrn mrw : Nat) (x : Symbol) : Nat := if isWide x then mrw else mrn

/-- The chunks of a symbol sequence in ascending lane order: symbol and length (R156; 42_segmenter.md R111). -/
def refChunks (xs : List Symbol) (mrn mrw : Nat) : List (Symbol × Nat) :=
  (maximalRuns xs).flatMap fun r => (cutRun (longest mrn mrw r.1) r.2 r.2).map fun len => (r.1, len)

/-- The bytes of one chunk (20_memory.md R56): one for a narrow symbol, two, high part first, for a wide one. -/
def chunkBytes (c : Symbol × Nat) : List Byte :=
  if isWide c.1 then [BitVec.ofNat 8 (c.1.toNat * 16 + c.2 / 256), BitVec.ofNat 8 (c.2 % 256)]
  else [BitVec.ofNat 8 (c.1.toNat * 16 + c.2)]

/-- `RLEREF(S, MRN, MRW)` (46_sequencer_host.md R156). -/
def rleRef (xs : List Symbol) (mrn mrw : Nat) : List Byte := (refChunks xs mrn mrw).flatMap chunkBytes

/-- `decode(bytes)` of 95_test_vectors.md section 2, a test oracle: the chunks a byte stream stands for. A wide first
byte with no second byte stands for nothing. -/
def streamChunks : List Byte → List (Symbol × Nat)
  | [] => []
  | x :: rest =>
    if isWide (x.extractLsb' 4 4) then
      match rest with
      | [] => []
      | y :: more => (x.extractLsb' 4 4, (x.extractLsb' 0 4).toNat * 256 + y.toNat) :: streamChunks more
    else (x.extractLsb' 4 4, (x.extractLsb' 0 4).toNat) :: streamChunks rest

/-- The symbols a byte stream decodes to (95_test_vectors.md section 2). -/
def rleDecode (bs : List Byte) : List Symbol := (streamChunks bs).flatMap fun c => List.replicate c.2 c.1

/-- The symbols of an encode, `SYM[0..N)`. -/
def State.symbols (s : State) : List Symbol := (List.range s.n.toNat).map s.symAt

/-- Execute pass operations one after another, stopping where one stops (the pseudo-operations of 30_encoding.md R82 are
such sequences). -/
def runPasses : List Instr → State → Host.Outcome State Fault Refusal
  | [], s => .next s
  | i :: rest, s =>
    match exec i s with
    | .next t => runPasses rest t
    | .fault r => .fault r
    | .refused r => .refused r

/-- A stepped operation at steps `0, 1, …, l - 1` (30_encoding.md R82). -/
def ascending (mk : StepIx → Instr) (l : Nat) : List Instr := (List.range l).map fun i => mk (BitVec.ofNat 5 i)

/-- A stepped operation at steps `l - 1, …, 1, 0` (30_encoding.md R82). -/
def descending (mk : StepIx → Instr) (l : Nat) : List Instr :=
  (List.range l).map fun k => mk (BitVec.ofNat 5 (l - 1 - k))

/-- The lane of logical row `row`, column `col` of a caller's array of the given width (20_memory.md R58). The core has no
width: this is the documented lane order of its host. -/
def laneOf (width row col : Nat) : Nat := row * width + col

/-- The logical row of a lane (20_memory.md R58). -/
def rowOf (width p : Nat) : Nat := p / width

/-- The logical column of a lane (20_memory.md R58). -/
def colOf (width p : Nat) : Nat := p % width

/-- The physical row of a host whose surface stores logical row 0 in the last physical row, and back (20_memory.md R58). -/
def physicalRow (height row : Nat) : Nat := height - 1 - row

end Sys2Proof.Machine
end

