-- ==== Sys2Proof/Safety.lean ====
section
/-! DEFINITION. What counts as a safe run of the core, and the frames of the passes, in the terms the statements use. -/

namespace Sys2Proof

/-- The seven buffer passes (00_scope.md R14). -/
def Instr.isBufferPass : Instr → Bool
  | .rli | .rls _ | .sgk | .scn _ | .cmp _ | .sgw | .exp _ => true
  | .rdk | .rdw | .pck | .fin => false

end Sys2Proof

namespace Sys2Proof.Machine

/-! ## Invariants -/

/-- `1 ≤ NMAX ≤ 2^29` (00_scope.md R6). -/
abbrev State.InstanceOk (s : State) : Prop := 1 ≤ s.nmax ∧ s.nmax ≤ 2 ^ 29

/-- Every memory is in canonical form and lists only cells that exist (20_memory.md R50). -/
abbrev State.MemoriesOk (s : State) : Prop :=
  (Memory.wf s.sym = true ∧ Memory.within s.sym s.nmax = true) ∧
  (Memory.wf s.buf0 = true ∧ Memory.within s.buf0 (2 * s.nmax) = true) ∧
  (Memory.wf s.buf1 = true ∧ Memory.within s.buf1 (2 * s.nmax) = true) ∧
  (Memory.wf s.out = true ∧ Memory.within s.out (2 * s.nmax) = true)

/-- At most one of BUSY, DONE, CFGERR is 1 (10_state.md R33); ERRCODE is 0 exactly when CFGERR is 0, and at most 4
(60_exceptions.md R182). -/
abbrev State.FlagsOk (s : State) : Prop :=
  ¬(s.busy = true ∧ s.done = true) ∧ ¬(s.busy = true ∧ s.cfgerr = true) ∧ ¬(s.done = true ∧ s.cfgerr = true) ∧
  (s.cfgerr = false ↔ s.errcode = 0#4) ∧ s.errcode.toNat ≤ 4

/-- The configuration a running encode has: what the check of START passes (60_exceptions.md R181). -/
abbrev State.ConfigLegal (s : State) : Prop :=
  (1 ≤ s.n.toNat ∧ s.n.toNat ≤ s.nmax) ∧ (1 ≤ s.mrn.toNat ∧ s.mrn.toNat ≤ 15) ∧
  (1 ≤ s.mrw.toNat ∧ s.mrw.toNat ≤ 4095) ∧ ∀ p, p < s.n.toNat → s.oorAt p = false

/-- The invariant of the machine, whatever pass words a caller supplies. -/
structure State.Inv (s : State) : Prop where
  inst   : s.InstanceOk
  mem    : s.MemoriesOk
  flags  : s.FlagsOk
  config : s.busy = true → s.ConfigLegal

/-- The invariant of the hardware, which runs `PROG(N)` and no other words (30_encoding.md R80): beside `Inv`, no word
is supplied, `PC` is inside `PROG(N)` while busy (46_sequencer_host.md R152), and after the first pass every valid lane's
`b` is a lane of the source domain (20_memory.md R51: "the read is in range"). -/
structure State.Canonical (s : State) : Prop where
  inv     : s.Inv
  noWords : s.supplied = []
  pcIn    : s.busy = true → s.pc.toNat < 5 * clog2 s.n.toNat + 7
  gathers : s.busy = true → 1 ≤ s.pc.toNat → ∀ p, p < s.lanes → (s.front p).b = noLane ∨ (s.front p).b.toNat < s.n.toNat

/-- An encode has just been accepted and the host does nothing more: what an accepted START leaves (46_sequencer_host.md
R162). -/
structure State.Started (s : State) : Prop where
  inv     : s.Inv
  busy    : s.busy = true
  pcZero  : s.pc = 0#8
  curZero : s.cur = .bank0
  noWords : s.supplied = []
  noEvent : s.inbox = []

/-- Lane `p` is in the maximal run of identical symbols that starts at lane `st` (41_runlength.md R102). -/
def State.InRunFrom (s : State) (st p : Nat) : Prop :=
  st ≤ p ∧ (∀ q, st ≤ q → q ≤ p → s.symAt q = s.symAt p) ∧ (st = 0 ∨ s.symAt (st - 1) ≠ s.symAt st)

/-- The gathers of the front lanes below `bound` are all in range: a `b` that is not `-1` lies in `[0, N)`
(42_segmenter.md R112, 93_implementation_defined.md U6). -/
def State.GathersInRange (s : State) (bound : Nat) : Prop :=
  ∀ p, p < bound → (s.front p).b ≠ noLane → 0 ≤ (s.front p).b.toInt ∧ (s.front p).b.toInt < (s.n.toNat : Int)

/-- The host writes CTRL with bit 1 clear and bit 0 set: START (46_sequencer_host.md R162). -/
def Event.isStart : Event → Bool
  | .hostWrite .reg 0 w => !w.getLsbD 1 && w.getLsbD 0
  | _ => false

/-- The host writes CTRL with bit 1 set: ABORT (46_sequencer_host.md R164). -/
def Event.isAbort : Event → Bool
  | .hostWrite .reg 0 w => w.getLsbD 1
  | _ => false

/-- The event the next step takes: the schedule's next, or the sequencer's turn. -/
def State.nextEvent (s : State) : Event := s.inbox.headD .pass

/-- The next step is the sequencer's, busy, and it runs the operation `i`. -/
def State.NextRuns (s : State) (i : Instr) : Prop :=
  s.nextEvent = .pass ∧ s.busy = true ∧ ∃ w, s.fetchWord = some w ∧ decode w = .instr i

/-- An event that leaves a running encode alone: any but a reset and a write to CTRL with bit 1, ABORT (R164, R200). -/
def Event.harmless : Event → Bool
  | .pass => true
  | .hostWrite .reg 0 w => !w.getLsbD 1
  | .hostWrite _ _ _ => true
  | .hostRead _ _ => true
  | .reset => false

/-- The event is the sequencer's turn. -/
def Event.isPass : Event → Bool
  | .pass => true
  | _ => false

/-! ## Frames -/

/-- No symbol cell, no input register, not the parameter, and none of the model's own fields but `freeIx`
differs. -/
structure SameOutside (s t : State) : Prop where
  sym     : ∀ p, t.symCell p = s.symCell p
  config  : t.n = s.n ∧ t.mrn = s.mrn ∧ t.mrw = s.mrw ∧ t.nmax = s.nmax
  models  : t.inbox = s.inbox ∧ t.answers = s.answers ∧ t.supplied = s.supplied ∧ t.draw = s.draw

/-- No flag differs. -/
abbrev SameFlags (s t : State) : Prop :=
  t.busy = s.busy ∧ t.done = s.done ∧ t.cfgerr = s.cfgerr ∧ t.errcode = s.errcode

/-- No count register differs. -/
abbrev SameCounts (s t : State) : Prop :=
  t.keepcnt = s.keepcnt ∧ t.repeatcnt = s.repeatcnt ∧ t.widecnt = s.widecnt ∧ t.mbytes = s.mbytes

/-- What a pass that writes no lane leaves of the banks, `PC` and the rest (00_scope.md R14): `PC` is one more and neither
a bank nor anything of `SameOutside` differs. -/
structure ScalarFrame (s t : State) : Prop where
  pc      : t.pc = s.pc + 1#8
  banks   : t.cur = s.cur ∧ ∀ k p, t.laneAt k p = s.laneAt k p
  outside : SameOutside s t

/-- No output byte differs. -/
def SameOut (s t : State) : Prop := ∀ d, t.outAt d = s.outAt d

/-- What a buffer pass leaves (00_scope.md R14): the banks are swapped, the bank that was read is unchanged, the bank
that was written keeps its lanes at and above `G` (10_state.md R23), `PC` is one more, and nothing else differs. -/
structure BufferFrame (s t : State) : Prop where
  pc      : t.pc = s.pc + 1#8
  cur     : t.cur = s.cur.other
  read    : ∀ p, t.back p = s.front p
  above   : ∀ p, s.lanes ≤ p → t.front p = s.back p
  outside : SameOutside s t
  flags   : SameFlags s t
  counts  : SameCounts s t
  out     : SameOut s t
  free    : t.freeIx = s.freeIx

end Sys2Proof.Machine
end

