-- ==== Sys2Proof/Certificates/Slice0/Obligations.lean ====
section
/-! DEFINITION. The statements for the provers. Each docstring says which rule of spec/ it formalises. -/

open Sys2Proof Sys2Proof.Machine

/-- For every well-formed pass operation, with every step index the encoding admits, the decoder reads from its pass
word exactly that operation. (30_encoding.md section 2 (R72, R73, R74)) -/
def Obligations.DecodeInvertsEncode : Prop :=
  ∀ i : Instr, i.wellFormed = true → decode (encode i) = .instr i

/-- Every 16-bit word that the decoder reads as an operation is the encoding of that operation, which is well-formed; so
every legal word has one meaning and every operation one word. (30_encoding.md section 2 (R72, R74)) -/
def Obligations.DecodedWordIsTheEncoding : Prop :=
  ∀ (w : PassWord) (i : Instr), decode w = .instr i → i.wellFormed = true ∧ encode i = w

/-- The seven unstepped words and, for every legal step index i, the four stepped words base + i of the opcode map
decode to the operation of their row. (30_encoding.md section 2 (R72)) -/
def Obligations.OpcodeMapDecodes : Prop :=
  decode 0x1000#16 = .instr .rli ∧ decode 0x3000#16 = .instr .sgk ∧ decode 0x5000#16 = .instr .rdk ∧
  decode 0x7000#16 = .instr .sgw ∧ decode 0x8000#16 = .instr .rdw ∧ decode 0xA000#16 = .instr .pck ∧
  decode 0xB000#16 = .instr .fin ∧
  ∀ i : StepIx, i ≠ 31#5 →
    decode (0x2000#16 + i.setWidth 16) = .instr (.rls i) ∧ decode (0x4000#16 + i.setWidth 16) = .instr (.scn i) ∧
    decode (0x6000#16 + i.setWidth 16) = .instr (.cmp i) ∧ decode (0x9000#16 + i.setWidth 16) = .instr (.exp i)

/-- A word is illegal exactly when OP is 0 or 12 to 15, or its ZERO field is not zero, or it is a stepped word with STEP
31. No word of PROG is illegal. A busy sequencer whose next caller-supplied word is illegal refuses it.
(30_encoding.md section 3 (R75), 93_implementation_defined.md U5) -/
def Obligations.IllegalWordsAreRefused : Prop :=
  (∀ w : PassWord, (∃ why, decode w = .illegal why) ↔
    (w.toNat / 4096 = 0 ∨ 12 ≤ w.toNat / 4096) ∨
    (w.toNat / 4096 ∈ [1, 3, 5, 7, 8, 10, 11] ∧ w.toNat % 4096 ≠ 0) ∨
    (w.toNat / 4096 ∈ [2, 4, 6, 9] ∧ (w.toNat % 4096 / 32 ≠ 0 ∨ w.toNat % 32 = 31))) ∧
  (∀ l, l ≤ 31 → ∀ w ∈ progOf l, ∃ i, decode w = .instr i) ∧
  (∀ (s : State) (w : PassWord) (ws : List PassWord) (why : IllegalWord),
    s.busy = true → s.nextEvent = .pass → s.supplied = w :: ws → decode w = .illegal why →
    step s = .refused (.illegalPassWord w))

/-- For every n at least 1, 2^clog2(n) is at least n and no smaller exponent is. (R7) -/
def Obligations.Clog2IsTheLeastExponent : Prop :=
  ∀ n : Nat, 1 ≤ n → n ≤ 2 ^ clog2 n ∧ ∀ k, n ≤ 2 ^ k → clog2 n ≤ k

/-- With L = clog2(N), PROG(N) has 5L + 7 words, and the word at index PC is the one of the table of rule R151: RLI, RLS
ascending, SGK, SCN ascending, RDK, CMP ascending, SGW, SCN ascending, RDW, EXP descending, PCK, FIN. (R151) -/
def Obligations.ProgramWordAtEachIndex : Prop :=
  ∀ (s : State) (l : Nat), s.n ≠ 0#32 → l = clog2 s.n.toNat →
  (progOf l).length = 5 * l + 7 ∧
  (s.pc.toNat = 0 → s.progWord = some 0x1000#16) ∧
  (∀ i, i < l → s.pc.toNat = 1 + i → s.progWord = some (0x2000#16 + BitVec.ofNat 16 i)) ∧
  (s.pc.toNat = l + 1 → s.progWord = some 0x3000#16) ∧
  (∀ i, i < l → s.pc.toNat = l + 2 + i → s.progWord = some (0x4000#16 + BitVec.ofNat 16 i)) ∧
  (s.pc.toNat = 2 * l + 2 → s.progWord = some 0x5000#16) ∧
  (∀ i, i < l → s.pc.toNat = 2 * l + 3 + i → s.progWord = some (0x6000#16 + BitVec.ofNat 16 i)) ∧
  (s.pc.toNat = 3 * l + 3 → s.progWord = some 0x7000#16) ∧
  (∀ i, i < l → s.pc.toNat = 3 * l + 4 + i → s.progWord = some (0x4000#16 + BitVec.ofNat 16 i)) ∧
  (s.pc.toNat = 4 * l + 4 → s.progWord = some 0x8000#16) ∧
  (∀ k, k < l → s.pc.toNat = 4 * l + 5 + k → s.progWord = some (0x9000#16 + BitVec.ofNat 16 (l - 1 - k))) ∧
  (s.pc.toNat = 5 * l + 5 → s.progWord = some 0xA000#16) ∧
  (s.pc.toNat = 5 * l + 6 → s.progWord = some 0xB000#16)

/-- When the sequencer is busy and has the turn, and the word at PC in PROG(N), or the next word a caller supplies,
decodes to an operation, the step is that operation's execution on the state, with the turn and the supplied word
taken off the model's lists. A word placed by withFetchWord is run so by the very next step. That words may be
supplied, and how turns are scheduled, is the model's choice (logs 6 and 8). (46_sequencer_host.md section 1 (R150,
R152), notes/assumptions/6.md, notes/assumptions/8.md) -/
def Obligations.StepRunsTheDecodedPass : Prop :=
  ∀ (s : State) (w : PassWord) (i : Instr), decode w = .instr i →
  (s.busy = true → s.supplied = [] → s.n ≠ 0#32 → (progOf (clog2 s.n.toNat))[s.pc.toNat]? = some w →
    (s.inbox = [] → step s = exec i s) ∧
    (∀ rest, s.inbox = .pass :: rest → step s = exec i { s with inbox := rest })) ∧
  (s.busy = true → ∀ ws, s.supplied = w :: ws →
    (s.inbox = [] → step s = exec i { s with supplied := ws }) ∧
    (∀ rest, s.inbox = .pass :: rest → step s = exec i { s with supplied := ws, inbox := rest })) ∧
  step (s.withFetchWord 16 w.toNat) = exec i { s with busy := true }

/-- While BUSY is 0 the sequencer's turn changes nothing (but that the turn is taken off the schedule; the schedule is
the model's choice, log 6). (46_sequencer_host.md section 1 (R150), notes/assumptions/6.md, notes/assumptions/9.md) -/
def Obligations.IdleSequencerDoesNothing : Prop :=
  ∀ s : State, s.busy = false →
  (s.inbox = [] → step s = .next s) ∧ (∀ rest, s.inbox = .pass :: rest → step s = .next { s with inbox := rest })

/-- RLI answers a next state for every state with N at most NMAX: every lane below N of the new front bank is (1, 0),
every lane from N up to 2N is (0, -1), whatever either bank held; nothing else changes but CUR and PC. (R100) -/
def Obligations.InitialisePassSetsRunLengthOne : Prop :=
  decode 0x1000#16 = .instr .rli ∧
  ∀ s : State, s.n.toNat ≤ s.nmax → ∃ t, exec .rli s = .next t ∧ BufferFrame s t ∧
    (∀ p, p < s.n.toNat → t.front p = ⟨1#32, 0#32⟩) ∧
    (∀ p, s.n.toNat ≤ p → p < 2 * s.n.toNat → t.front p = ⟨0#32, -1#32⟩)

/-- RLS i with a legal step answers a next state for every state with N at most NMAX: a lane below N gets the sum of its
and its left neighbour's run length when that neighbour at distance 2^i exists, holds the same symbol, and the
lane's run length equals 2^i; otherwise it is copied; the second component is copied; lanes from N up to 2N are
EMPTY; nothing else changes but CUR and PC. (R101) -/
def Obligations.RunLengthStepMergesGrownRuns : Prop :=
  ∀ (s : State) (i : StepIx), i ≠ 31#5 → s.n.toNat ≤ s.nmax →
  decode (0x2000#16 + i.setWidth 16) = .instr (.rls i) ∧
  ∃ t, exec (.rls i) s = .next t ∧ BufferFrame s t ∧
    (∀ p, p < s.n.toNat →
      (∀ l, l + 2 ^ i.toNat = p → s.symAt l = s.symAt p → (s.front p).a.toInt = 2 ^ i.toNat →
        t.front p = ⟨(s.front p).a + (s.front l).a, (s.front p).b⟩) ∧
      ((∀ l, l + 2 ^ i.toNat = p → s.symAt l ≠ s.symAt p ∨ (s.front p).a.toInt ≠ 2 ^ i.toNat) →
        t.front p = s.front p)) ∧
    (∀ p, s.n.toNat ≤ p → p < 2 * s.n.toNat → t.front p = ⟨0#32, -1#32⟩)

/-- SGK answers a next state for every state with N at most NMAX: with M = MRW for symbols 0 and 15 and M = MRN for the
others, M not 0, a lane p below N becomes (1, p) when a - 1 is a multiple of M and EMPTY otherwise; lanes from N up
to 2N are EMPTY; nothing else changes but CUR and PC. (R110) -/
def Obligations.SegmentPassMarksChunkStarts : Prop :=
  decode 0x3000#16 = .instr .sgk ∧
  ∀ s : State, s.n.toNat ≤ s.nmax → ∃ t, exec .sgk s = .next t ∧ BufferFrame s t ∧
    (∀ p, p < s.n.toNat → ∀ m : Word,
      ((s.symAt p = 0#4 ∨ s.symAt p = 15#4) → m = s.mrw) → (s.symAt p ≠ 0#4 → s.symAt p ≠ 15#4 → m = s.mrn) →
      m ≠ 0#32 →
      ((∃ q : Int, ((s.front p).a - 1#32).toInt = q * (m.toNat : Int)) → t.front p = ⟨1#32, BitVec.ofNat 32 p⟩) ∧
      ((¬∃ q : Int, ((s.front p).a - 1#32).toInt = q * (m.toNat : Int)) → t.front p = ⟨0#32, -1#32⟩)) ∧
    (∀ p, s.n.toNat ≤ p → p < 2 * s.n.toNat → t.front p = ⟨0#32, -1#32⟩)

/-- The model's choice for a state the START check rules out (log 12): where MRN or MRW is 0 and the modulus undefined,
SGK still completes, each such lane is marked or EMPTY, and two such lanes with the same run length fare alike,
whatever the free remainder is. (00_scope.md section 5 (R16), notes/assumptions/12.md) -/
def Obligations.SegmentPassWithZeroMaximumStillRuns : Prop :=
  ∀ s : State, s.n.toNat ≤ s.nmax → ∃ t, exec .sgk s = .next t ∧ BufferFrame s t ∧
    ∀ p, p < s.n.toNat → s.maxRun (s.symAt p) = 0#32 →
      (t.front p = ⟨1#32, BitVec.ofNat 32 p⟩ ∨ t.front p = ⟨0#32, -1#32⟩) ∧
      ∀ q, q < s.n.toNat → s.maxRun (s.symAt q) = 0#32 → (s.front q).a = (s.front p).a →
        ((t.front q).a = (t.front p).a)

/-- SCN i with a legal step answers a next state for every state with N at most NMAX: a lane below N gets its own a plus
that of the lane 2^i to its left, or its own if there is none; b is copied; lanes from N up to 2N are EMPTY; nothing
else changes but CUR and PC. (R90) -/
def Obligations.ScanStepAddsLeftNeighbour : Prop :=
  ∀ (s : State) (i : StepIx), i ≠ 31#5 → s.n.toNat ≤ s.nmax →
  decode (0x4000#16 + i.setWidth 16) = .instr (.scn i) ∧
  ∃ t, exec (.scn i) s = .next t ∧ BufferFrame s t ∧
    (∀ p, p < s.n.toNat →
      (∀ l, l + 2 ^ i.toNat = p → t.front p = ⟨(s.front p).a + (s.front l).a, (s.front p).b⟩) ∧
      (p < 2 ^ i.toNat → t.front p = s.front p)) ∧
    (∀ p, s.n.toNat ≤ p → p < 2 * s.n.toNat → t.front p = ⟨0#32, -1#32⟩)

/-- RDK answers a next state for every state with N from 1 to 2 NMAX, the lanes of a bank (a START admits N up to NMAX
only): KEEPCNT is the a of front lane N - 1, REPEATCNT is N minus it; no bank, flag, byte, symbol or other register
changes but PC. (R91) -/
def Obligations.ReadbackOfKeepTotal : Prop :=
  decode 0x5000#16 = .instr .rdk ∧
  ∀ s : State, 1 ≤ s.n.toNat → s.n.toNat ≤ 2 * s.nmax → ∃ t, exec .rdk s = .next t ∧
    t.keepcnt = (s.front (s.n.toNat - 1)).a ∧ t.repeatcnt = s.n - (s.front (s.n.toNat - 1)).a ∧
    ScalarFrame s t ∧ SameFlags s t ∧ SameOut s t ∧ t.widecnt = s.widecnt ∧ t.mbytes = s.mbytes ∧ t.freeIx = s.freeIx

/-- RDW answers a next state for every state with N from 1 to 2 NMAX, the lanes of a bank (a START admits N up to NMAX
only): WIDECNT is the a of front lane N - 1; no bank, flag, byte, symbol or other register changes but PC. (R92) -/
def Obligations.ReadbackOfWideTotal : Prop :=
  decode 0x8000#16 = .instr .rdw ∧
  ∀ s : State, 1 ≤ s.n.toNat → s.n.toNat ≤ 2 * s.nmax → ∃ t, exec .rdw s = .next t ∧
    t.widecnt = (s.front (s.n.toNat - 1)).a ∧
    ScalarFrame s t ∧ SameFlags s t ∧ SameOut s t ∧ t.keepcnt = s.keepcnt ∧ t.repeatcnt = s.repeatcnt ∧
    t.mbytes = s.mbytes ∧ t.freeIx = s.freeIx

/-- The model's choice for a state no encode reaches (log 11): with N = 0 there is no lane N - 1; RDK and RDW still
complete, the latched value is free, REPEATCNT is N minus it, and nothing else changes but PC (and the model's free
counter). (40_scan.md section 2 (R91, R92), notes/assumptions/11.md) -/
def Obligations.ReadbackWithoutLanesStillRuns : Prop :=
  ∀ s : State, s.n = 0#32 →
  (∃ t, exec .rdk s = .next t ∧ t.repeatcnt = s.n - t.keepcnt ∧ ScalarFrame s t ∧ SameFlags s t ∧ SameOut s t ∧
    t.widecnt = s.widecnt ∧ t.mbytes = s.mbytes) ∧
  (∃ t, exec .rdw s = .next t ∧ ScalarFrame s t ∧ SameFlags s t ∧ SameOut s t ∧ t.keepcnt = s.keepcnt ∧
    t.repeatcnt = s.repeatcnt ∧ t.mbytes = s.mbytes)

/-- CMP i with a legal step answers a next state for every state with N at most NMAX: a lane below N takes the whole
pair of the lane 2^i to its right when that lane is below N, valid, and bit i of its b - a + 1 is set; else it keeps
its own pair when that is valid and its bit i is clear; else it is EMPTY; lanes from N up to 2N are EMPTY; nothing
else changes but CUR and PC. (R120) -/
def Obligations.CompactStepRoutesLeft : Prop :=
  ∀ (s : State) (i : StepIx), i ≠ 31#5 → s.n.toNat ≤ s.nmax →
  decode (0x6000#16 + i.setWidth 16) = .instr (.cmp i) ∧
  ∃ t, exec (.cmp i) s = .next t ∧ BufferFrame s t ∧
    (∀ x, x < s.n.toNat →
      ∀ moves : Nat → Prop,
        (∀ y, moves y ↔ (s.front y).b ≠ -1#32 ∧
          ((s.front y).b - (s.front y).a + 1#32).toNat / 2 ^ i.toNat % 2 = 1) →
        ((x + 2 ^ i.toNat < s.n.toNat ∧ moves (x + 2 ^ i.toNat)) → t.front x = s.front (x + 2 ^ i.toNat)) ∧
        (¬(x + 2 ^ i.toNat < s.n.toNat ∧ moves (x + 2 ^ i.toNat)) →
          ((s.front x).b ≠ -1#32 ∧ ¬moves x → t.front x = s.front x) ∧
          ((s.front x).b = -1#32 ∨ moves x → t.front x = ⟨0#32, -1#32⟩))) ∧
    (∀ p, s.n.toNat ≤ p → p < 2 * s.n.toNat → t.front p = ⟨0#32, -1#32⟩)

/-- SGW answers a next state for every state with N at most NMAX whose lanes below N hold b = -1 or b in [0, N): a valid
slot gets a = 1 when the symbol at its OWN source lane b is 0 or 15 and a = 0 otherwise, keeping b; an empty slot
and the lanes from N up to 2N are EMPTY; nothing else changes but CUR and PC. (Where b is out of range SGW is
refused: GatherOutsideTheSymbolsIsRefused.) (42_segmenter.md (R112, R113), 00_scope.md R8) -/
def Obligations.WidthPassMarksOwnSymbol : Prop :=
  decode 0x7000#16 = .instr .sgw ∧
  ∀ s : State, s.n.toNat ≤ s.nmax → s.GathersInRange s.n.toNat → ∃ t, exec .sgw s = .next t ∧ BufferFrame s t ∧
    (∀ p, p < s.n.toNat → (s.front p).b ≠ -1#32 →
      ((s.symAt (s.front p).b.toNat = 0#4 ∨ s.symAt (s.front p).b.toNat = 15#4) →
        t.front p = ⟨1#32, (s.front p).b⟩) ∧
      (s.symAt (s.front p).b.toNat ≠ 0#4 → s.symAt (s.front p).b.toNat ≠ 15#4 →
        t.front p = ⟨0#32, (s.front p).b⟩)) ∧
    (∀ p, p < s.n.toNat → (s.front p).b = -1#32 → t.front p = ⟨0#32, -1#32⟩) ∧
    (∀ p, s.n.toNat ≤ p → p < 2 * s.n.toNat → t.front p = ⟨0#32, -1#32⟩)

/-- EXP i with a legal step answers a next state for every state with N at most NMAX whose lanes below 2N hold b = -1 or
b in [0, N): every lane below 2N takes the whole pair of the lane 2^i to its left when that lane exists, is valid,
and bit i of its a - w is set (w = 1 if the symbol at its b is 0 or 15); else it keeps its own pair when valid with
bit i clear; else it is EMPTY; nothing else changes but CUR and PC. (Where b is out of range EXP is refused:
GatherOutsideTheSymbolsIsRefused.) (44_expander.md (R130), 00_scope.md R8) -/
def Obligations.ExpandStepRoutesRight : Prop :=
  ∀ (s : State) (i : StepIx), i ≠ 31#5 → s.n.toNat ≤ s.nmax → s.GathersInRange (2 * s.n.toNat) →
  decode (0x9000#16 + i.setWidth 16) = .instr (.exp i) ∧
  ∃ t, exec (.exp i) s = .next t ∧ BufferFrame s t ∧
    ∀ w : Nat → Word,
      (∀ y, w y = if s.symAt (s.front y).b.toNat = 0#4 ∨ s.symAt (s.front y).b.toNat = 15#4 then 1#32 else 0#32) →
      ∀ moves : Nat → Prop,
        (∀ y, moves y ↔ (s.front y).b ≠ -1#32 ∧ ((s.front y).a - w y).toNat / 2 ^ i.toNat % 2 = 1) →
        ∀ x, x < 2 * s.n.toNat →
          (∀ y, y + 2 ^ i.toNat = x → moves y → t.front x = s.front y) ∧
          ((∀ y, y + 2 ^ i.toNat = x → ¬moves y) →
            ((s.front x).b ≠ -1#32 ∧ ¬moves x → t.front x = s.front x) ∧
            ((s.front x).b = -1#32 ∨ moves x → t.front x = ⟨0#32, -1#32⟩))

/-- PCK answers a next state for every state with N at most NMAX whose lanes below 2N hold b = -1 or b in [0, N): the
first byte of a wide chunk is symbol * 16 + bits 11:8 of the length, of a narrow chunk symbol * 16 + bits 3:0, the
slot after a wide one is bits 7:0, every other slot 0; the length is the next chunk's source index (N if there is
none) minus this one's. Bytes from 2N on, banks, symbols, flags and registers but PC are unchanged. (Where b is out
of range PCK is refused: GatherOutsideTheSymbolsIsRefused.) (45_packer.md (R140, R142), 00_scope.md R8, 20_memory.md
R56) -/
def Obligations.PackPassWritesEveryByte : Prop :=
  decode 0xA000#16 = .instr .pck ∧
  ∀ s : State, s.n.toNat ≤ s.nmax → s.GathersInRange (2 * s.n.toNat) → ∃ t, exec .pck s = .next t ∧
    ScalarFrame s t ∧ SameFlags s t ∧ SameCounts s t ∧ t.freeIx = s.freeIx ∧
    (∀ d, 2 * s.n.toNat ≤ d → t.outAt d = s.outAt d) ∧
    ∀ next : Nat → Word,
      (∀ d, d < 2 * s.n.toNat → (s.front d).b ≠ -1#32 → next d = (s.front d).b) →
      (∀ d, (2 * s.n.toNat ≤ d ∨ (s.front d).b = -1#32) → next d = s.n) →
      ∀ wide : Nat → Prop,
        (∀ d, wide d ↔ (s.front d).b ≠ -1#32 ∧
          (s.symAt (s.front d).b.toNat = 0#4 ∨ s.symAt (s.front d).b.toNat = 15#4)) →
        ∀ d, d < 2 * s.n.toNat →
          (wide d → (t.outAt d).toNat = (s.symAt (s.front d).b.toNat).toNat * 16
            + (next (d + 2) - (s.front d).b).toNat / 256 % 16) ∧
          ((s.front d).b ≠ -1#32 → ¬wide d → (t.outAt d).toNat = (s.symAt (s.front d).b.toNat).toNat * 16
            + (next (d + 1) - (s.front d).b).toNat % 16) ∧
          ((s.front d).b = -1#32 →
            (∀ c, c + 1 = d → wide c → (t.outAt d).toNat = (next (d + 1) - (s.front c).b).toNat % 256) ∧
            ((∀ c, c + 1 = d → ¬wide c) → t.outAt d = 0x00#8))

/-- FIN answers a next state for every state: MBYTES is KEEPCNT + WIDECNT, BUSY is 0, DONE is 1, CFGERR and ERRCODE are
untouched, and no bank, byte, symbol or other register changes but PC. (R141) -/
def Obligations.FinishSizesTheOutput : Prop :=
  decode 0xB000#16 = .instr .fin ∧
  ∀ s : State, ∃ t, exec .fin s = .next t ∧
    t.mbytes = s.keepcnt + s.widecnt ∧ t.busy = false ∧ t.done = true ∧
    t.cfgerr = s.cfgerr ∧ t.errcode = s.errcode ∧
    t.keepcnt = s.keepcnt ∧ t.repeatcnt = s.repeatcnt ∧ t.widecnt = s.widecnt ∧
    ScalarFrame s t ∧ SameOut s t ∧ t.freeIx = s.freeIx

/-- RLS, SCN, CMP and EXP with step index 31, which no legal word stands for, are refused in every state (log 16).
(30_encoding.md section 3 (R75), notes/assumptions/16.md) -/
def Obligations.SteppedPassRefusesStepThirtyOne : Prop :=
  ∀ s : State, exec (.rls 31#5) s = .refused .illegalStep ∧ exec (.scn 31#5) s = .refused .illegalStep ∧
  exec (.cmp 31#5) s = .refused .illegalStep ∧ exec (.exp 31#5) s = .refused .illegalStep

/-- The model's choice for a state the START check rules out (log 10): with N above NMAX every buffer pass and PCK
fault; RDK and RDW fault when lane N - 1 is beyond the bank's 2 NMAX lanes. (10_state.md section 2 (R21, R22, R23),
notes/assumptions/10.md) -/
def Obligations.PassOverAbsentLanesFaults : Prop :=
  ∀ (s : State) (i : Instr), s.nmax < s.n.toNat → i.wellFormed = true →
  ((i.isBufferPass = true ∨ i = .pck) → exec i s = .fault .laneAbsent) ∧
  ((i = .rdk ∨ i = .rdw) → 2 * s.nmax < s.n.toNat → exec i s = .fault .laneAbsent)

/-- With N at most NMAX, when some lane the pass gathers through (below N for SGW, below 2N for EXP and PCK) holds a b
that is not -1 and not in [0, N), the pass is refused. That the whole pass is refused, not a part of it, is the
model's reading (log 13). (42_segmenter.md (R112), 93_implementation_defined.md U6, notes/assumptions/13.md) -/
def Obligations.GatherOutsideTheSymbolsIsRefused : Prop :=
  ∀ s : State, s.n.toNat ≤ s.nmax →
  (¬s.GathersInRange s.n.toNat → exec .sgw s = .refused .symIndexOutOfRange) ∧
  (¬s.GathersInRange (2 * s.n.toNat) →
    (∀ i : StepIx, i ≠ 31#5 → exec (.exp i) s = .refused .symIndexOutOfRange) ∧
    exec .pck s = .refused .symIndexOutOfRange)

/-- For each of RLI, RLS, SGK, SCN, CMP, SGW, EXP: when it answers a next state, the bank it read is unchanged and is
now the back bank, the bank it wrote keeps its lanes from 2N up, PC is one more, and every symbol, output byte,
register, flag and model field is as before. (00_scope.md section 5 (R14), 10_state.md section 2 (R23, R26)) -/
def Obligations.BufferPassFrame : Prop :=
  ∀ (i : Instr) (s t : State), i.isBufferPass = true → exec i s = .next t → BufferFrame s t

/-- Every pass that answers a next state adds one to PC and leaves the symbols, N, MRN, MRW and NMAX as they were; only
FIN writes a flag or MBYTES, only RDK writes KEEPCNT and REPEATCNT, only RDW writes WIDECNT, only PCK writes output
bytes and only below 2N, only buffer passes write lanes or swap, and no lane from 2N up is ever written.
(00_scope.md section 5 (R14), 10_state.md sections 1, 2 and 4 (R20, R21, R23, R33), 46_sequencer_host.md section 1
(R152)) -/
def Obligations.OnlyTheNamedPassWrites : Prop :=
  ∀ (i : Instr) (s t : State), exec i s = .next t →
  SameOutside s t ∧ t.pc = s.pc + 1#8 ∧
  (i ≠ .fin → SameFlags s t ∧ t.mbytes = s.mbytes) ∧
  (i ≠ .rdk → t.keepcnt = s.keepcnt ∧ t.repeatcnt = s.repeatcnt) ∧
  (i ≠ .rdw → t.widecnt = s.widecnt) ∧
  (i ≠ .pck → SameOut s t) ∧
  (∀ d, 2 * s.n.toNat ≤ d → t.outAt d = s.outAt d) ∧
  (i.isBufferPass = false → t.cur = s.cur ∧ ∀ k p, t.laneAt k p = s.laneAt k p) ∧
  (∀ k p, 2 * s.n.toNat ≤ p → t.laneAt k p = s.laneAt k p)

/-- The machine right after reset meets the invariant of the hardware, for every NMAX from 1 to 2^29 and whatever the
memories hold. (10_state.md section 6 (R38), 00_scope.md section 3 (R6), notes/assumptions/1.md) -/
def Obligations.ResetStateIsCanonical : Prop :=
  State.reset.Canonical ∧
  ∀ nmax draw : Nat, 1 ≤ nmax → nmax ≤ 2 ^ 29 → (State.resetOf nmax draw).Canonical

/-- From every state that meets it, whatever the host does next and whatever pass words a caller supplies, a step that
answers a next state keeps: NMAX in its range; the four memories in canonical form listing only cells that exist; at
most one of BUSY, DONE, CFGERR set, with ERRCODE 0 exactly when CFGERR is 0 and at most 4; and, while busy, a legal
configuration with no out-of-range symbol below N. (10_state.md sections 1, 2 and 4 (R20 to R23, R33),
46_sequencer_host.md sections 1 and 3, 60_exceptions.md section 1) -/
def Obligations.StepKeepsTheInvariant : Prop :=
  ∀ s t : State, s.Inv → step s = .next t → t.Inv

/-- From every state that meets the hardware's invariant (no supplied words, PC inside PROG(N) while busy, every valid
lane's b a symbol's index after the first pass), whatever the host does next, the step answers a next state, and
that state meets the invariant again: no pass raises anything, no illegal word is met, no symbol is read out of
range. (60_exceptions.md section 1 (R180), 20_memory.md section 2 (R51), 46_sequencer_host.md section 1 (R152,
R153), 30_encoding.md R75) -/
def Obligations.HardwareNeverStops : Prop :=
  ∀ s : State, s.Canonical → ∃ t, step s = .next t ∧ t.Canonical

/-- Over every step of the machine: BUSY is set only by a START that passes the check and cleared only by FIN, ABORT or
reset; DONE is set only by FIN and cleared only by START or reset; CFGERR is set only by a START that fails the
check and cleared only by START or reset; ERRCODE changes only with a START that is not ignored or a reset. ABORT
never clears the error. (10_state.md section 4 (R33), 60_exceptions.md section 1 (R180, R185), 46_sequencer_host.md
section 3 (R163)) -/
def Obligations.StatusFlagsChangeOnlyAsTabled : Prop :=
  ∀ s t : State, step s = .next t →
  (s.busy = false → t.busy = true → s.nextEvent.isStart = true ∧ s.cfgCheck = 0#4) ∧
  (s.busy = true → t.busy = false → s.nextEvent = .reset ∨ s.nextEvent.isAbort = true ∨ s.NextRuns .fin) ∧
  (s.done = false → t.done = true → s.NextRuns .fin) ∧
  (s.done = true → t.done = false → s.nextEvent = .reset ∨ s.nextEvent.isStart = true) ∧
  (s.cfgerr = false → t.cfgerr = true → s.nextEvent.isStart = true ∧ s.cfgCheck ≠ 0#4) ∧
  (s.cfgerr = true → t.cfgerr = false → s.nextEvent = .reset ∨ s.nextEvent.isStart = true) ∧
  (t.errcode ≠ s.errcode → s.nextEvent = .reset ∨ (s.nextEvent.isStart = true ∧ s.busy = false))

/-- A reset event at any time, busy or not, leaves the registers and flags at the values of rule R38, the parameter NMAX
as it was, and every cell of SYM, OOR, BUF and OUT unspecified: the memories list nothing and a fresh draw of free
values holds. That the draw is numbered, and that the host's schedule and answers stay, is the model's (logs 5 and
18). (10_state.md section 6 (R38), 70_reset_and_hazards.md section 1 (R200), notes/assumptions/5.md,
notes/assumptions/18.md) -/
def Obligations.ResetEventSetsTheResetValues : Prop :=
  ∀ (s : State) (rest : List Event), s.inbox = .reset :: rest → ∃ t, step s = .next t ∧
  t.busy = false ∧ t.done = false ∧ t.cfgerr = false ∧ t.errcode = 0#4 ∧ t.n = 0#32 ∧ t.mrn = 15#32 ∧
  t.mrw = 4095#32 ∧ t.keepcnt = 0#32 ∧ t.repeatcnt = 0#32 ∧ t.widecnt = 0#32 ∧ t.mbytes = 0#32 ∧ t.pc = 0#8 ∧
  t.cur = .bank0 ∧ t.nmax = s.nmax ∧ t.sym = [] ∧ t.buf0 = [] ∧ t.buf1 = [] ∧ t.out = [] ∧ t.draw = s.draw + 1 ∧
  t.supplied = [] ∧ t.inbox = rest ∧ t.answers = s.answers

/-- A host read of any space at any index, in any STATUS, returns the word of rule R161: the STATUS bits in their
places, each register whole, PC zero-extended, NMAX for CAP, symbol and tag, output byte, and 0 for CTRL and every
index out of range; the state of the core does not change (the returned word goes to the model's list of answers,
log 7). (R161) -/
def Obligations.HostReadReturnsTheCell : Prop :=
  ∀ (s : State) (sp : Space) (ix : Nat) (rest : List Event), s.inbox = .hostRead sp ix :: rest →
  ∃ v : Word, step s = .next { s with inbox := rest, answers := v :: s.answers } ∧
    (sp = .reg →
      ((ix = 0 ∨ 11 ≤ ix) → v = 0#32) ∧
      (ix = 1 → v.toNat = s.busy.toNat + 2 * s.done.toNat + 4 * s.cfgerr.toNat + 256 * s.errcode.toNat) ∧
      (ix = 2 → v = s.n) ∧ (ix = 3 → v = s.mrn) ∧ (ix = 4 → v = s.mrw) ∧ (ix = 5 → v = s.keepcnt) ∧
      (ix = 6 → v = s.repeatcnt) ∧ (ix = 7 → v = s.widecnt) ∧ (ix = 8 → v = s.mbytes) ∧
      (ix = 9 → v.toNat = s.pc.toNat) ∧ (ix = 10 → v = BitVec.ofNat 32 s.nmax)) ∧
    (sp = .sym → (ix < s.nmax → v.toNat = (s.symAt ix).toNat + 16 * (s.oorAt ix).toNat) ∧
      (s.nmax ≤ ix → v = 0#32)) ∧
    (sp = .out → (ix < 2 * s.nmax → v.toNat = (s.outAt ix).toNat) ∧ (2 * s.nmax ≤ ix → v = 0#32))

/-- A host write to CTRL is the command it encodes; to N, MRN, MRW it stores all 32 bits while idle and is ignored while
busy; to any other register, to OUT, and to SYM while busy or at or beyond NMAX, it is ignored; to SYM while idle it
stores bits 3:0 as the symbol and whether bits 31:4 are non-zero as the tag, and changes no other cell and no other
state. (R160) -/
def Obligations.HostWriteStoresOnlyWhileIdle : Prop :=
  ∀ (s : State) (sp : Space) (ix : Nat) (w : Word) (rest : List Event), s.inbox = .hostWrite sp ix w :: rest →
  ∃ t, step s = .next t ∧
    (sp = .reg → ix = 0 → t = State.command { s with inbox := rest } w) ∧
    (sp = .reg → s.busy = false →
      (ix = 2 → t = { s with inbox := rest, n := w }) ∧ (ix = 3 → t = { s with inbox := rest, mrn := w }) ∧
      (ix = 4 → t = { s with inbox := rest, mrw := w })) ∧
    (sp = .reg → (ix = 1 ∨ 5 ≤ ix) → t = { s with inbox := rest }) ∧
    (sp = .reg → s.busy = true → 1 ≤ ix → t = { s with inbox := rest }) ∧
    (sp = .sym → s.busy = false → ix < s.nmax →
      (t.symAt ix).toNat = w.toNat % 16 ∧ (t.oorAt ix = true ↔ 16 ≤ w.toNat) ∧
      (∀ p, p ≠ ix → t.symCell p = s.symCell p) ∧ (∃ m, t = { s with inbox := rest, sym := m })) ∧
    (sp = .sym → (s.busy = true ∨ s.nmax ≤ ix) → t = { s with inbox := rest }) ∧
    (sp = .out → t = { s with inbox := rest })

/-- In every state: code 1 when N is 0; else 2 when N exceeds NMAX; else 3 when MRN is outside 1 to 15 or MRW outside 1
to 4095; else 4 when some lane below N was last written with a value above 15; else 0. (R183) -/
def Obligations.ConfigurationCheckReportsLowestCause : Prop :=
  ∀ s : State,
  (s.n.toNat = 0 → s.cfgCheck = 1#4) ∧
  (1 ≤ s.n.toNat → s.nmax < s.n.toNat → s.cfgCheck = 2#4) ∧
  (1 ≤ s.n.toNat → s.n.toNat ≤ s.nmax →
    (¬(1 ≤ s.mrn.toNat ∧ s.mrn.toNat ≤ 15) ∨ ¬(1 ≤ s.mrw.toNat ∧ s.mrw.toNat ≤ 4095)) → s.cfgCheck = 3#4) ∧
  (1 ≤ s.n.toNat → s.n.toNat ≤ s.nmax → 1 ≤ s.mrn.toNat → s.mrn.toNat ≤ 15 → 1 ≤ s.mrw.toNat →
    s.mrw.toNat ≤ 4095 →
    ((∃ p, p < s.n.toNat ∧ s.oorAt p = true) → s.cfgCheck = 4#4) ∧
    ((∀ p, p < s.n.toNat → s.oorAt p = false) → s.cfgCheck = 0#4))

/-- A write to CTRL with bit 1 clear and bit 0 set is ignored while busy; while idle it clears DONE, CFGERR and ERRCODE,
and then, if the check fails, sets CFGERR and ERRCODE to the code and changes nothing else, and if it passes, sets
BUSY, PC to 0 and CUR to 0 and changes nothing else. With both bits clear the write does nothing. (R162) -/
def Obligations.StartRaisesOrBegins : Prop :=
  ∀ (s : State) (w : Word) (rest : List Event), s.inbox = .hostWrite .reg 0 w :: rest → w.getLsbD 1 = false →
  (w.getLsbD 0 = false → step s = .next { s with inbox := rest }) ∧
  (w.getLsbD 0 = true →
    (s.busy = true → step s = .next { s with inbox := rest }) ∧
    (s.busy = false → s.cfgCheck ≠ 0#4 →
      step s = .next { s with inbox := rest, done := false, cfgerr := true, errcode := s.cfgCheck }) ∧
    (s.busy = false → s.cfgCheck = 0#4 →
      step s = .next { s with
        inbox := rest, done := false, cfgerr := false, errcode := 0#4, busy := true, pc := 0#8, cur := .bank0 }))

/-- A write to CTRL with bit 1 set, whatever bit 0 is, clears BUSY when busy and changes nothing else; when idle it is
ignored. (R164) -/
def Obligations.AbortAbandonsTheEncode : Prop :=
  ∀ (s : State) (w : Word) (rest : List Event), s.inbox = .hostWrite .reg 0 w :: rest → w.getLsbD 1 = true →
  (s.busy = true → step s = .next { s with inbox := rest, busy := false }) ∧
  (s.busy = false → step s = .next { s with inbox := rest })

/-- While BUSY is 1, every host read and every host write other than one to CTRL with bit 1 set leaves the whole state
of the core as it was: the configuration, the symbols, PC and the banks are immutable under a running encode, and a
START is ignored. (70_reset_and_hazards.md section 3 (R204, R205), 20_memory.md section 5 (R63)) -/
def Obligations.RunningEncodeIgnoresTheHost : Prop :=
  ∀ (s t : State), s.busy = true → s.nextEvent.harmless = true → s.nextEvent.isPass = false → step s = .next t →
  ∃ rest answers, t = { s with inbox := rest, answers := answers }

/-- From an idle state that meets the invariant, a START the check passes leaves a busy sequencer at PC 0 with a legal
configuration, the same N, MRN, MRW and the same symbols. (46_sequencer_host.md section 3 (R162), 60_exceptions.md
section 1 (R181)) -/
def Obligations.AcceptedStartBeginsAnEncode : Prop :=
  ∀ (s : State) (w : Word), s.Inv → s.busy = false → s.supplied = [] → s.cfgCheck = 0#4 →
  s.inbox = [.hostWrite .reg 0 w] → w.getLsbD 1 = false → w.getLsbD 0 = true → ∃ t, step s = .next t ∧ t.Started ∧
    t.n = s.n ∧ t.mrn = s.mrn ∧ t.mrw = s.mrw ∧ t.symbols = s.symbols

/-- Running SCN 0 up to SCN LOGN - 1 from any front bank leaves, in every lane p below N, the sum of the a components of
lanes 0 to p (modulo 2^32) and the b component unchanged. (R93) -/
def Obligations.ScanStageGivesPrefixSums : Prop :=
  ∀ s : State, 1 ≤ s.n.toNat → s.n.toNat ≤ s.nmax → s.nmax ≤ 2 ^ 29 →
  ∃ t, runPasses (ascending .scn (clog2 s.n.toNat)) s = .next t ∧
    ∀ p, p < s.n.toNat →
      (t.front p).a = (((List.range (p + 1)).map fun q => (s.front q).a).foldl (· + ·) 0#32) ∧
      (t.front p).b = (s.front p).b

/-- From a front bank whose a components below N are all 0, the scan stage leaves them all 0, and the total read back is
0. (R95) -/
def Obligations.ScanOfZeroFlagsIsZero : Prop :=
  ∀ s : State, 1 ≤ s.n.toNat → s.n.toNat ≤ s.nmax → s.nmax ≤ 2 ^ 29 → (∀ p, p < s.n.toNat → (s.front p).a = 0#32) →
  ∃ t u, runPasses (ascending .scn (clog2 s.n.toNat)) s = .next t ∧ (∀ p, p < s.n.toNat → (t.front p).a = 0#32) ∧
    exec .rdk t = .next u ∧ u.keepcnt = 0#32

/-- Running RLI, RLS 0 up to RLS LOGN - 1 from any banks leaves, in every lane p below N of a maximal run starting at
lane st, the value p - st + 1. (R102) -/
def Obligations.DetectorStageGivesRunOffsets : Prop :=
  ∀ s : State, 1 ≤ s.n.toNat → s.n.toNat ≤ s.nmax → s.nmax ≤ 2 ^ 29 →
  ∃ t, runPasses (.rli :: ascending .rls (clog2 s.n.toNat)) s = .next t ∧
    ∀ p st, p < s.n.toNat → s.InRunFrom st p → (t.front p).a = BitVec.ofNat 32 (p - st + 1)

/-- From a front bank holding the detector's offsets, SGK makes lane 0 a chunk-start, and lane p of a run starting at st
a chunk-start exactly when p - st is a multiple of the maximum run of its symbol. (42_segmenter.md (R111)) -/
def Obligations.SegmenterMarksEveryMaximumRun : Prop :=
  ∀ s : State, 1 ≤ s.n.toNat → s.n.toNat ≤ s.nmax → s.nmax ≤ 2 ^ 29 → s.mrn ≠ 0#32 → s.mrw ≠ 0#32 →
  (∀ p st, p < s.n.toNat → s.InRunFrom st p → (s.front p).a = BitVec.ofNat 32 (p - st + 1)) →
  ∃ t, exec .sgk s = .next t ∧ t.front 0 = ⟨1#32, 0#32⟩ ∧
    ∀ p st, p < s.n.toNat → s.InRunFrom st p →
      ((p - st) % (s.maxRun (s.symAt p)).toNat = 0 → t.front p = ⟨1#32, BitVec.ofNat 32 p⟩) ∧
      ((p - st) % (s.maxRun (s.symAt p)).toNat ≠ 0 → t.front p = ⟨0#32, -1#32⟩)

/-- From a front bank with (scan[p], p) on the kept lanes, (scan[p], -1) on the other lanes below N and EMPTY above, for
any set of kept lanes holding lane 0, running CMP 0 up to CMP LOGN - 1 leaves the content of the kept lane of rank r
as (r + 1, p) in lane r, and every lane from K = scan[N - 1] up to 2N EMPTY. (43_compactor.md (R121, R122)) -/
def Obligations.CompactionStageGivesDenseRanks : Prop :=
  ∀ (s : State) (kept : Nat → Bool) (scan : Nat → Nat), 1 ≤ s.n.toNat → s.n.toNat ≤ s.nmax → s.nmax ≤ 2 ^ 29 →
  (∀ p, scan p = ((List.range (p + 1)).filter kept).length) →
  (∀ p, p < s.n.toNat →
    s.front p = ⟨BitVec.ofNat 32 (scan p), if kept p then BitVec.ofNat 32 p else -1#32⟩) →
  (∀ p, s.n.toNat ≤ p → p < 2 * s.n.toNat → s.front p = ⟨0#32, -1#32⟩) → kept 0 = true →
  ∃ t, runPasses (ascending .cmp (clog2 s.n.toNat)) s = .next t ∧
    (∀ p, p < s.n.toNat → kept p = true →
      t.front (scan p - 1) = ⟨BitVec.ofNat 32 (scan p), BitVec.ofNat 32 p⟩) ∧
    (∀ x, scan (s.n.toNat - 1) ≤ x → x < 2 * s.n.toNat → t.front x = ⟨0#32, -1#32⟩)

/-- From a front bank with the dense slots of K chunks in ascending source order carrying the inclusive count of wide
slots, and no other valid lane, running EXP LOGN - 1 down to EXP 0 leaves slot j's content in lane j plus the number
of wide slots before it; every other lane is empty; consecutive slots are one apart after a narrow slot and two
after a wide one; nothing leaves the 2N lanes. (44_expander.md (R131, R132)) -/
def Obligations.ExpansionStageOpensWideSlots : Prop :=
  ∀ (s : State) (k : Nat) (src : Nat → Nat) (wide : Nat → Bool) (before : Nat → Nat), 1 ≤ s.n.toNat → s.n.toNat ≤ s.nmax → s.nmax ≤ 2 ^ 29 →
  k ≤ s.n.toNat → (∀ i j, i < j → j < k → src i < src j) → (∀ j, j < k → src j < s.n.toNat) →
  (∀ j, wide j = isWide (s.symAt (src j))) → (∀ j, before j = ((List.range j).filter wide).length) →
  (∀ j, j < k → s.front j = ⟨BitVec.ofNat 32 (before (j + 1)), BitVec.ofNat 32 (src j)⟩) →
  (∀ x, k ≤ x → x < 2 * s.n.toNat → (s.front x).b = -1#32) →
  ∃ t, runPasses (descending .exp (clog2 s.n.toNat)) s = .next t ∧
    (∀ j, j < k → t.front (j + before j) = s.front j) ∧
    (∀ x, x < 2 * s.n.toNat → (∀ j, j < k → x ≠ j + before j) → (t.front x).b = -1#32 ∧
      (2 ≤ s.n.toNat → t.front x = ⟨0#32, -1#32⟩)) ∧
    (∀ j, j + 1 < k → (j + 1) + before (j + 1) = (j + before j) + 1 + (wide j).toNat) ∧
    (∀ j, j < k → j + before j + (wide j).toNat < 2 * s.n.toNat)

/-- Two states with the same N, the same symbols and the same b components in the front lanes below 2N get the same
packed bytes, whatever their a components, other banks and registers are. (45_packer.md (R142)) -/
def Obligations.PackerReadsNoRunLength : Prop :=
  ∀ (s s' t t' : State), s'.n = s.n → (∀ p, s'.symAt p = s.symAt p) →
  (∀ p, p < 2 * s.n.toNat → (s'.front p).b = (s.front p).b) →
  exec .pck s = .next t → exec .pck s' = .next t' →
  ∀ d, d < 2 * s.n.toNat → t'.outAt d = t.outAt d

/-- From every just-accepted START, exactly 5 LOGN + 7 sequencer steps end with DONE, PC at 5 LOGN + 7, MBYTES the
length of RLEREF of the symbols, OUT[0..MBYTES) its bytes, zeros up to 2N, KEEPCNT the number of chunks, WIDECNT the
number of wide chunks, and REPEATCNT = N - KEEPCNT. (R156) -/
def Obligations.EncodeMeetsTheReference : Prop :=
  ∀ s : State, s.Started → ∃ t : State,
  Host.Core.run Sys2Proof.core (5 * clog2 s.n.toNat + 7) s = .next t ∧
  t.busy = false ∧ t.done = true ∧ t.pc.toNat = 5 * clog2 s.n.toNat + 7 ∧
  t.mbytes.toNat = (rleRef s.symbols s.mrn.toNat s.mrw.toNat).length ∧
  (∀ d, d < t.mbytes.toNat → some (t.outAt d) = (rleRef s.symbols s.mrn.toNat s.mrw.toNat)[d]?) ∧
  (∀ d, t.mbytes.toNat ≤ d → d < 2 * s.n.toNat → t.outAt d = 0x00#8) ∧
  t.keepcnt.toNat = (refChunks s.symbols s.mrn.toNat s.mrw.toNat).length ∧
  t.widecnt.toNat = ((refChunks s.symbols s.mrn.toNat s.mrw.toNat).filter fun c => isWide c.1).length ∧
  t.repeatcnt.toNat + t.keepcnt.toNat = s.n.toNat

/-- After every encode the stream OUT[0..MBYTES) decodes to exactly the symbols it was given; every decoded chunk's
length is from 1 to the maximum run of its class; MBYTES is the number of narrow chunks plus twice the number of
wide ones, at least 1 and at most 2N. (46_sequencer_host.md section 2 (R157), 45_packer.md (R141),
95_test_vectors.md section 2) -/
def Obligations.EncodedStreamDecodesToTheSymbols : Prop :=
  ∀ s : State, s.Started → ∃ (t : State) (bytes : List Byte),
  Host.Core.run Sys2Proof.core (5 * clog2 s.n.toNat + 7) s = .next t ∧
  bytes = (List.range t.mbytes.toNat).map t.outAt ∧
  rleDecode bytes = s.symbols ∧
  (∀ c ∈ streamChunks bytes, 1 ≤ c.2 ∧ c.2 ≤ longest s.mrn.toNat s.mrw.toNat c.1) ∧
  t.mbytes.toNat = ((streamChunks bytes).filter fun c => !isWide c.1).length
    + 2 * ((streamChunks bytes).filter fun c => isWide c.1).length ∧
  1 ≤ t.mbytes.toNat ∧ t.mbytes.toNat ≤ 2 * s.n.toNat

/-- From every busy state of the hardware with a schedule of host reads, host writes other than ABORT, and sequencer's
turns, of which fewer are turns than passes remain, the machine is done with PC at 5 LOGN + 7 after exactly the
remaining passes plus those transactions; and OUT below 2N and the four count registers are then those of the run
from the same state with an empty schedule, as is everything else but the words the host was answered.
(46_sequencer_host.md sections 1 and 2 (R153, R156), 20_memory.md section 5 (R63), 70_reset_and_hazards.md section 2
(R201), notes/assumptions/6.md, notes/assumptions/7.md) -/
def Obligations.EncodeFinishesUnderHarmlessTransactions : Prop :=
  ∀ s : State, s.Canonical → s.busy = true → (∀ e ∈ s.inbox, e.harmless = true) →
  (s.inbox.filter Event.isPass).length < 5 * clog2 s.n.toNat + 7 - s.pc.toNat →
  ∃ t u : State,
    Host.Core.run Sys2Proof.core
      (5 * clog2 s.n.toNat + 7 - s.pc.toNat + (s.inbox.filter fun e => !e.isPass).length) s = .next t ∧
    t.busy = false ∧ t.done = true ∧ t.pc.toNat = 5 * clog2 s.n.toNat + 7 ∧ t.inbox = [] ∧
    Host.Core.run Sys2Proof.core (5 * clog2 s.n.toNat + 7 - s.pc.toNat) { s with inbox := [] } = .next u ∧
    (∀ d, d < 2 * s.n.toNat → t.outAt d = u.outAt d) ∧
    t.keepcnt = u.keepcnt ∧ t.repeatcnt = u.repeatcnt ∧ t.widecnt = u.widecnt ∧ t.mbytes = u.mbytes ∧
    t = { u with answers := t.answers }

/-- Two encodes begun with the same N, MRN, MRW and symbols end with the same bytes OUT[0..2N), the same counts and PC
and the same front bank number, whatever the banks, the output memory, the counts, the symbols at and above N and
NMAX were in either. (10_state.md section 6 (R37), 46_sequencer_host.md section 2 (R157)) -/
def Obligations.EarlierContentsDoNotMatter : Prop :=
  ∀ s s' : State, s.Started → s'.Started → s'.n = s.n → s'.mrn = s.mrn → s'.mrw = s.mrw →
  s'.symbols = s.symbols → ∃ t t' : State,
    Host.Core.run Sys2Proof.core (5 * clog2 s.n.toNat + 7) s = .next t ∧
    Host.Core.run Sys2Proof.core (5 * clog2 s.n.toNat + 7) s' = .next t' ∧
    (∀ d, d < 2 * s.n.toNat → t'.outAt d = t.outAt d) ∧
    t'.keepcnt = t.keepcnt ∧ t'.repeatcnt = t.repeatcnt ∧ t'.widecnt = t.widecnt ∧ t'.mbytes = t.mbytes ∧
    t'.pc = t.pc ∧ t'.cur = t.cur

/-- With 2^i at least N, RLS and SCN copy every lane below N, and CMP pulls nothing: it keeps every valid lane whose
displacement has bit i clear and writes EMPTY to every valid lane whose displacement has bit i set and to every
empty lane; all three write EMPTY to the lanes from N up to 2N. (EXP is not of the source domain and may move
contents while 2^i is below 2N: ExpandStepRoutesRight.) (30_encoding.md section 2 (R73, R76)) -/
def Obligations.StepBeyondTheArrayMovesNothing : Prop :=
  ∀ (s : State) (i : StepIx), i ≠ 31#5 → s.n.toNat ≤ s.nmax → s.n.toNat ≤ 2 ^ i.toNat →
  (∃ t, exec (.rls i) s = .next t ∧
    (∀ p, s.n.toNat ≤ p → p < 2 * s.n.toNat → t.front p = ⟨0#32, -1#32⟩) ∧
    ∀ p, p < s.n.toNat → t.front p = s.front p) ∧
  (∃ t, exec (.scn i) s = .next t ∧
    (∀ p, s.n.toNat ≤ p → p < 2 * s.n.toNat → t.front p = ⟨0#32, -1#32⟩) ∧
    ∀ p, p < s.n.toNat → t.front p = s.front p) ∧
  (∃ t, exec (.cmp i) s = .next t ∧
    (∀ p, s.n.toNat ≤ p → p < 2 * s.n.toNat → t.front p = ⟨0#32, -1#32⟩) ∧
    ∀ p, p < s.n.toNat →
    ((s.front p).b ≠ -1#32 → ((s.front p).b - (s.front p).a + 1#32).toNat / 2 ^ i.toNat % 2 = 0 →
      t.front p = s.front p) ∧
    ((s.front p).b ≠ -1#32 → ((s.front p).b - (s.front p).a + 1#32).toNat / 2 ^ i.toNat % 2 = 1 →
      t.front p = ⟨0#32, -1#32⟩) ∧
    ((s.front p).b = -1#32 → t.front p = ⟨0#32, -1#32⟩))

/-- For a width and height of at least 1, lane = row * width + col and (row, col) = (p div width, p mod width) are
inverse maps between the cells of the array and the lanes below width * height, with cell (0, 0) at lane 0; and the
flip of a host that stores logical row 0 last is its own inverse on the rows. (20_memory.md section 3 (R58)) -/
def Obligations.LaneOrderIsRowMajor : Prop :=
  ∀ width height : Nat, 1 ≤ width → 1 ≤ height →
  (∀ row col, row < height → col < width →
    laneOf width row col < width * height ∧ rowOf width (laneOf width row col) = row ∧
    colOf width (laneOf width row col) = col) ∧
  (∀ p, p < width * height →
    rowOf width p < height ∧ colOf width p < width ∧ laneOf width (rowOf width p) (colOf width p) = p) ∧
  laneOf width 0 0 = 0 ∧
  (∀ row, row < height → physicalRow height row < height ∧ physicalRow height (physicalRow height row) = row)
end

