-- ==== Sys2Proof/Laws/Memory.lean ====
section
/-! SUPPORT. The laws of a memory: what a read gives after a write, and that every operation keeps the canonical form and
the depth. -/

namespace Sys2Proof.Machine

variable {α : Type}

@[simp] theorem Memory.read_nil (p : Nat) : Memory.read ([] : Memory α) p = none := rfl

theorem Memory.read_cons (k : Nat) (v : α) (m : Memory α) (p : Nat) :
    Memory.read ((k, v) :: m) p = if k = p then some v else Memory.read m p := rfl

/-- A read after a write of one cell. -/
theorem Memory.read_write (m : Memory α) (p q : Nat) (v : α) :
    Memory.read (Memory.write m p v) q = if q = p then some v else Memory.read m q := by
  induction m with
  | nil => simp only [Memory.write, Memory.read_cons, Memory.read_nil, eq_comm]
  | cons c m ih =>
    obtain ⟨k, u⟩ := c
    unfold Memory.write
    split
    · simp only [Memory.read_cons, eq_comm]
    · split
      · subst k
        simp only [Memory.read_cons, eq_comm]
        split <;> rfl
      · rename_i _ hne
        simp only [Memory.read_cons, ih]
        by_cases hq : q = p
        · subst hq; simp [Ne.symm hne]
        · simp [hq]

theorem Memory.read_append (m m' : Memory α) (p : Nat) :
    Memory.read (m ++ m') p = (Memory.read m p).or (Memory.read m' p) := by
  induction m with
  | nil => simp
  | cons c m ih =>
    obtain ⟨k, u⟩ := c
    simp only [List.cons_append, Memory.read_cons, ih]
    split <;> simp

theorem Memory.read_map_of_not_mem (l : List Nat) (f : Nat → α) (p : Nat) (h : p ∉ l) :
    Memory.read (l.map fun q => (q, f q)) p = none := by
  induction l with
  | nil => rfl
  | cons q l ih =>
    simp only [List.mem_cons, not_or] at h
    simp only [List.map_cons, Memory.read_cons, ih h.2, if_neg (Ne.symm h.1)]

theorem Memory.read_map_of_mem (l : List Nat) (f : Nat → α) (p : Nat) (h : p ∈ l) :
    Memory.read (l.map fun q => (q, f q)) p = some (f p) := by
  induction l with
  | nil => cases h
  | cons q l ih =>
    simp only [List.map_cons, Memory.read_cons]
    by_cases hq : q = p
    · simp [hq]
    · simp only [if_neg hq]
      exact ih ((List.mem_cons.1 h).resolve_left (Ne.symm hq))

theorem Memory.read_filter (m : Memory α) (g p : Nat) (h : g ≤ p) :
    Memory.read (m.filter fun c => decide (g ≤ c.1)) p = Memory.read m p := by
  induction m with
  | nil => rfl
  | cons c m ih =>
    obtain ⟨k, u⟩ := c
    simp only [List.filter_cons, Memory.read_cons]
    by_cases hk : g ≤ k
    · simp only [decide_eq_true hk, if_true, Memory.read_cons, ih]
    · rw [if_neg (by simpa using hk), ih, if_neg (by omega)]

/-- A read after a write of the cells below `g`: the new contents there, the old ones above. -/
theorem Memory.read_fill (m : Memory α) (g : Nat) (f : Nat → α) (p : Nat) :
    Memory.read (Memory.fill m g f) p = if p < g then some (f p) else Memory.read m p := by
  unfold Memory.fill
  rw [Memory.read_append]
  split
  · rename_i h
    rw [Memory.read_map_of_mem _ _ _ (List.mem_range.2 h)]
    rfl
  · rename_i h
    rw [Memory.read_map_of_not_mem _ _ _ (by simpa using h), Memory.read_filter _ _ _ (by omega)]
    rfl

/-- The canonical form as a pairwise order of the indexes. -/
theorem Memory.wf_iff (m : Memory α) : Memory.wf m = true ↔ m.Pairwise fun c d => c.1 < d.1 := by
  induction m with
  | nil => simp [Memory.wf]
  | cons c m ih =>
    obtain ⟨k, u⟩ := c
    cases m with
    | nil => simp [Memory.wf]
    | cons d m =>
      obtain ⟨l, v⟩ := d
      rw [Memory.wf, Bool.and_eq_true, decide_eq_true_eq, ih, List.pairwise_cons (a := (k, u))]
      constructor
      · rintro ⟨hkl, hp⟩
        refine ⟨fun e he => ?_, hp⟩
        rcases List.mem_cons.1 he with rfl | he
        · exact hkl
        · exact Nat.lt_trans hkl ((List.pairwise_cons.1 hp).1 e he)
      · rintro ⟨hall, hp⟩
        exact ⟨hall (l, v) (List.mem_cons_self ..), hp⟩

theorem Memory.mem_write {m : Memory α} {p : Nat} {v : α} {c : Nat × α} (h : c ∈ Memory.write m p v) :
    c = (p, v) ∨ c ∈ m := by
  induction m with
  | nil => simpa [Memory.write] using h
  | cons d m ih =>
    obtain ⟨k, u⟩ := d
    unfold Memory.write at h
    split at h
    · rcases List.mem_cons.1 h with h | h
      · exact .inl h
      · exact .inr h
    · split at h
      · rcases List.mem_cons.1 h with h | h
        · exact .inl h
        · exact .inr (List.mem_cons_of_mem _ h)
      · rcases List.mem_cons.1 h with h | h
        · exact .inr (h ▸ List.mem_cons_self ..)
        · exact (ih h).imp id (List.mem_cons_of_mem _)

/-- A write of one cell keeps the canonical form. -/
theorem Memory.wf_write {m : Memory α} (p : Nat) (v : α) (h : Memory.wf m = true) :
    Memory.wf (Memory.write m p v) = true := by
  rw [Memory.wf_iff] at h ⊢
  induction m with
  | nil => simp [Memory.write]
  | cons c m ih =>
    obtain ⟨k, u⟩ := c
    have hc := List.pairwise_cons.1 h
    unfold Memory.write
    split
    · rename_i hpk
      refine List.pairwise_cons.2 ⟨fun e he => ?_, h⟩
      rcases List.mem_cons.1 he with rfl | he
      · exact hpk
      · exact Nat.lt_trans hpk (hc.1 e he)
    · split
      · subst k
        exact List.pairwise_cons.2 ⟨fun e he => hc.1 e he, hc.2⟩
      · rename_i hlt hne
        refine List.pairwise_cons.2 ⟨fun e he => ?_, ih hc.2⟩
        rcases Memory.mem_write he with rfl | he
        · show k < p
          omega
        · exact hc.1 e he

/-- A write of the cells below `g` keeps the canonical form. -/
theorem Memory.wf_fill {m : Memory α} (g : Nat) (f : Nat → α) (h : Memory.wf m = true) :
    Memory.wf (Memory.fill m g f) = true := by
  rw [Memory.wf_iff] at h ⊢
  unfold Memory.fill
  refine List.pairwise_append.2 ⟨?_, h.filter _, ?_⟩
  · exact List.pairwise_map.2 (List.pairwise_lt_range.imp fun hab => hab)
  · intro c hc d hd
    obtain ⟨q, hq, rfl⟩ := List.mem_map.1 hc
    have hd := (List.mem_filter.1 hd).2
    exact Nat.lt_of_lt_of_le (List.mem_range.1 hq) (of_decide_eq_true hd)

/-- A write of one cell that exists lists only cells that exist. -/
theorem Memory.within_write {m : Memory α} {depth p : Nat} (v : α) (h : Memory.within m depth = true)
    (hp : p < depth) : Memory.within (Memory.write m p v) depth = true := by
  simp only [Memory.within, List.all_eq_true, decide_eq_true_eq] at h ⊢
  intro c hc
  rcases Memory.mem_write hc with rfl | hc
  · exact hp
  · exact h c hc

/-- A write of cells that all exist lists only cells that exist. -/
theorem Memory.within_fill {m : Memory α} {depth g : Nat} (f : Nat → α) (h : Memory.within m depth = true)
    (hg : g ≤ depth) : Memory.within (Memory.fill m g f) depth = true := by
  simp only [Memory.within, List.all_eq_true, decide_eq_true_eq] at h ⊢
  intro c hc
  rcases List.mem_append.1 hc with hc | hc
  · obtain ⟨q, hq, rfl⟩ := List.mem_map.1 hc
    exact Nat.lt_of_lt_of_le (List.mem_range.1 hq) hg
  · exact h c (List.mem_filter.1 hc).1

end Sys2Proof.Machine
end

