-- ==== Sys2Proof/Laws/State.lean ====
section
/-! SUPPORT. One lemma per field per update of State: what each named update leaves in each field. -/

namespace Sys2Proof.Machine

variable (s : State)

/-! ### `State.advancePc` -/

@[simp] theorem State.advancePc_sym : (s.advancePc).sym = s.sym := rfl
@[simp] theorem State.advancePc_buf0 : (s.advancePc).buf0 = s.buf0 := rfl
@[simp] theorem State.advancePc_buf1 : (s.advancePc).buf1 = s.buf1 := rfl
@[simp] theorem State.advancePc_cur : (s.advancePc).cur = s.cur := rfl
@[simp] theorem State.advancePc_out : (s.advancePc).out = s.out := rfl
@[simp] theorem State.advancePc_n : (s.advancePc).n = s.n := rfl
@[simp] theorem State.advancePc_mrn : (s.advancePc).mrn = s.mrn := rfl
@[simp] theorem State.advancePc_mrw : (s.advancePc).mrw = s.mrw := rfl
@[simp] theorem State.advancePc_keepcnt : (s.advancePc).keepcnt = s.keepcnt := rfl
@[simp] theorem State.advancePc_repeatcnt : (s.advancePc).repeatcnt = s.repeatcnt := rfl
@[simp] theorem State.advancePc_widecnt : (s.advancePc).widecnt = s.widecnt := rfl
@[simp] theorem State.advancePc_mbytes : (s.advancePc).mbytes = s.mbytes := rfl
@[simp] theorem State.advancePc_pc : (s.advancePc).pc = s.pc + 1#8 := rfl
@[simp] theorem State.advancePc_busy : (s.advancePc).busy = s.busy := rfl
@[simp] theorem State.advancePc_done : (s.advancePc).done = s.done := rfl
@[simp] theorem State.advancePc_cfgerr : (s.advancePc).cfgerr = s.cfgerr := rfl
@[simp] theorem State.advancePc_errcode : (s.advancePc).errcode = s.errcode := rfl
@[simp] theorem State.advancePc_nmax : (s.advancePc).nmax = s.nmax := rfl
@[simp] theorem State.advancePc_inbox : (s.advancePc).inbox = s.inbox := rfl
@[simp] theorem State.advancePc_answers : (s.advancePc).answers = s.answers := rfl
@[simp] theorem State.advancePc_supplied : (s.advancePc).supplied = s.supplied := rfl
@[simp] theorem State.advancePc_draw : (s.advancePc).draw = s.draw := rfl
@[simp] theorem State.advancePc_freeIx : (s.advancePc).freeIx = s.freeIx := rfl

/-! ### `State.swapBanks` -/

@[simp] theorem State.swapBanks_sym : (s.swapBanks).sym = s.sym := rfl
@[simp] theorem State.swapBanks_buf0 : (s.swapBanks).buf0 = s.buf0 := rfl
@[simp] theorem State.swapBanks_buf1 : (s.swapBanks).buf1 = s.buf1 := rfl
@[simp] theorem State.swapBanks_cur : (s.swapBanks).cur = s.cur.other := rfl
@[simp] theorem State.swapBanks_out : (s.swapBanks).out = s.out := rfl
@[simp] theorem State.swapBanks_n : (s.swapBanks).n = s.n := rfl
@[simp] theorem State.swapBanks_mrn : (s.swapBanks).mrn = s.mrn := rfl
@[simp] theorem State.swapBanks_mrw : (s.swapBanks).mrw = s.mrw := rfl
@[simp] theorem State.swapBanks_keepcnt : (s.swapBanks).keepcnt = s.keepcnt := rfl
@[simp] theorem State.swapBanks_repeatcnt : (s.swapBanks).repeatcnt = s.repeatcnt := rfl
@[simp] theorem State.swapBanks_widecnt : (s.swapBanks).widecnt = s.widecnt := rfl
@[simp] theorem State.swapBanks_mbytes : (s.swapBanks).mbytes = s.mbytes := rfl
@[simp] theorem State.swapBanks_pc : (s.swapBanks).pc = s.pc := rfl
@[simp] theorem State.swapBanks_busy : (s.swapBanks).busy = s.busy := rfl
@[simp] theorem State.swapBanks_done : (s.swapBanks).done = s.done := rfl
@[simp] theorem State.swapBanks_cfgerr : (s.swapBanks).cfgerr = s.cfgerr := rfl
@[simp] theorem State.swapBanks_errcode : (s.swapBanks).errcode = s.errcode := rfl
@[simp] theorem State.swapBanks_nmax : (s.swapBanks).nmax = s.nmax := rfl
@[simp] theorem State.swapBanks_inbox : (s.swapBanks).inbox = s.inbox := rfl
@[simp] theorem State.swapBanks_answers : (s.swapBanks).answers = s.answers := rfl
@[simp] theorem State.swapBanks_supplied : (s.swapBanks).supplied = s.supplied := rfl
@[simp] theorem State.swapBanks_draw : (s.swapBanks).draw = s.draw := rfl
@[simp] theorem State.swapBanks_freeIx : (s.swapBanks).freeIx = s.freeIx := rfl

/-! ### `State.fillBack` -/

@[simp] theorem State.fillBack_sym (f : Nat → Lane) : (s.fillBack f).sym = s.sym := rfl
@[simp] theorem State.fillBack_cur (f : Nat → Lane) : (s.fillBack f).cur = s.cur := rfl
@[simp] theorem State.fillBack_out (f : Nat → Lane) : (s.fillBack f).out = s.out := rfl
@[simp] theorem State.fillBack_n (f : Nat → Lane) : (s.fillBack f).n = s.n := rfl
@[simp] theorem State.fillBack_mrn (f : Nat → Lane) : (s.fillBack f).mrn = s.mrn := rfl
@[simp] theorem State.fillBack_mrw (f : Nat → Lane) : (s.fillBack f).mrw = s.mrw := rfl
@[simp] theorem State.fillBack_keepcnt (f : Nat → Lane) : (s.fillBack f).keepcnt = s.keepcnt := rfl
@[simp] theorem State.fillBack_repeatcnt (f : Nat → Lane) : (s.fillBack f).repeatcnt = s.repeatcnt := rfl
@[simp] theorem State.fillBack_widecnt (f : Nat → Lane) : (s.fillBack f).widecnt = s.widecnt := rfl
@[simp] theorem State.fillBack_mbytes (f : Nat → Lane) : (s.fillBack f).mbytes = s.mbytes := rfl
@[simp] theorem State.fillBack_pc (f : Nat → Lane) : (s.fillBack f).pc = s.pc := rfl
@[simp] theorem State.fillBack_busy (f : Nat → Lane) : (s.fillBack f).busy = s.busy := rfl
@[simp] theorem State.fillBack_done (f : Nat → Lane) : (s.fillBack f).done = s.done := rfl
@[simp] theorem State.fillBack_cfgerr (f : Nat → Lane) : (s.fillBack f).cfgerr = s.cfgerr := rfl
@[simp] theorem State.fillBack_errcode (f : Nat → Lane) : (s.fillBack f).errcode = s.errcode := rfl
@[simp] theorem State.fillBack_nmax (f : Nat → Lane) : (s.fillBack f).nmax = s.nmax := rfl
@[simp] theorem State.fillBack_inbox (f : Nat → Lane) : (s.fillBack f).inbox = s.inbox := rfl
@[simp] theorem State.fillBack_answers (f : Nat → Lane) : (s.fillBack f).answers = s.answers := rfl
@[simp] theorem State.fillBack_supplied (f : Nat → Lane) : (s.fillBack f).supplied = s.supplied := rfl
@[simp] theorem State.fillBack_draw (f : Nat → Lane) : (s.fillBack f).draw = s.draw := rfl
@[simp] theorem State.fillBack_freeIx (f : Nat → Lane) : (s.fillBack f).freeIx = s.freeIx := rfl

/-! ### `State.fillOut` -/

@[simp] theorem State.fillOut_sym (f : Nat → Byte) : (s.fillOut f).sym = s.sym := rfl
@[simp] theorem State.fillOut_buf0 (f : Nat → Byte) : (s.fillOut f).buf0 = s.buf0 := rfl
@[simp] theorem State.fillOut_buf1 (f : Nat → Byte) : (s.fillOut f).buf1 = s.buf1 := rfl
@[simp] theorem State.fillOut_cur (f : Nat → Byte) : (s.fillOut f).cur = s.cur := rfl
@[simp] theorem State.fillOut_out (f : Nat → Byte) : (s.fillOut f).out = Memory.fill s.out s.lanes f := rfl
@[simp] theorem State.fillOut_n (f : Nat → Byte) : (s.fillOut f).n = s.n := rfl
@[simp] theorem State.fillOut_mrn (f : Nat → Byte) : (s.fillOut f).mrn = s.mrn := rfl
@[simp] theorem State.fillOut_mrw (f : Nat → Byte) : (s.fillOut f).mrw = s.mrw := rfl
@[simp] theorem State.fillOut_keepcnt (f : Nat → Byte) : (s.fillOut f).keepcnt = s.keepcnt := rfl
@[simp] theorem State.fillOut_repeatcnt (f : Nat → Byte) : (s.fillOut f).repeatcnt = s.repeatcnt := rfl
@[simp] theorem State.fillOut_widecnt (f : Nat → Byte) : (s.fillOut f).widecnt = s.widecnt := rfl
@[simp] theorem State.fillOut_mbytes (f : Nat → Byte) : (s.fillOut f).mbytes = s.mbytes := rfl
@[simp] theorem State.fillOut_pc (f : Nat → Byte) : (s.fillOut f).pc = s.pc := rfl
@[simp] theorem State.fillOut_busy (f : Nat → Byte) : (s.fillOut f).busy = s.busy := rfl
@[simp] theorem State.fillOut_done (f : Nat → Byte) : (s.fillOut f).done = s.done := rfl
@[simp] theorem State.fillOut_cfgerr (f : Nat → Byte) : (s.fillOut f).cfgerr = s.cfgerr := rfl
@[simp] theorem State.fillOut_errcode (f : Nat → Byte) : (s.fillOut f).errcode = s.errcode := rfl
@[simp] theorem State.fillOut_nmax (f : Nat → Byte) : (s.fillOut f).nmax = s.nmax := rfl
@[simp] theorem State.fillOut_inbox (f : Nat → Byte) : (s.fillOut f).inbox = s.inbox := rfl
@[simp] theorem State.fillOut_answers (f : Nat → Byte) : (s.fillOut f).answers = s.answers := rfl
@[simp] theorem State.fillOut_supplied (f : Nat → Byte) : (s.fillOut f).supplied = s.supplied := rfl
@[simp] theorem State.fillOut_draw (f : Nat → Byte) : (s.fillOut f).draw = s.draw := rfl
@[simp] theorem State.fillOut_freeIx (f : Nat → Byte) : (s.fillOut f).freeIx = s.freeIx := rfl

/-! ### `State.writeSym` -/

@[simp] theorem State.writeSym_sym (p : Nat) (c : SymCell) : (s.writeSym p c).sym = Memory.write s.sym p c := rfl
@[simp] theorem State.writeSym_buf0 (p : Nat) (c : SymCell) : (s.writeSym p c).buf0 = s.buf0 := rfl
@[simp] theorem State.writeSym_buf1 (p : Nat) (c : SymCell) : (s.writeSym p c).buf1 = s.buf1 := rfl
@[simp] theorem State.writeSym_cur (p : Nat) (c : SymCell) : (s.writeSym p c).cur = s.cur := rfl
@[simp] theorem State.writeSym_out (p : Nat) (c : SymCell) : (s.writeSym p c).out = s.out := rfl
@[simp] theorem State.writeSym_n (p : Nat) (c : SymCell) : (s.writeSym p c).n = s.n := rfl
@[simp] theorem State.writeSym_mrn (p : Nat) (c : SymCell) : (s.writeSym p c).mrn = s.mrn := rfl
@[simp] theorem State.writeSym_mrw (p : Nat) (c : SymCell) : (s.writeSym p c).mrw = s.mrw := rfl
@[simp] theorem State.writeSym_keepcnt (p : Nat) (c : SymCell) : (s.writeSym p c).keepcnt = s.keepcnt := rfl
@[simp] theorem State.writeSym_repeatcnt (p : Nat) (c : SymCell) : (s.writeSym p c).repeatcnt = s.repeatcnt := rfl
@[simp] theorem State.writeSym_widecnt (p : Nat) (c : SymCell) : (s.writeSym p c).widecnt = s.widecnt := rfl
@[simp] theorem State.writeSym_mbytes (p : Nat) (c : SymCell) : (s.writeSym p c).mbytes = s.mbytes := rfl
@[simp] theorem State.writeSym_pc (p : Nat) (c : SymCell) : (s.writeSym p c).pc = s.pc := rfl
@[simp] theorem State.writeSym_busy (p : Nat) (c : SymCell) : (s.writeSym p c).busy = s.busy := rfl
@[simp] theorem State.writeSym_done (p : Nat) (c : SymCell) : (s.writeSym p c).done = s.done := rfl
@[simp] theorem State.writeSym_cfgerr (p : Nat) (c : SymCell) : (s.writeSym p c).cfgerr = s.cfgerr := rfl
@[simp] theorem State.writeSym_errcode (p : Nat) (c : SymCell) : (s.writeSym p c).errcode = s.errcode := rfl
@[simp] theorem State.writeSym_nmax (p : Nat) (c : SymCell) : (s.writeSym p c).nmax = s.nmax := rfl
@[simp] theorem State.writeSym_inbox (p : Nat) (c : SymCell) : (s.writeSym p c).inbox = s.inbox := rfl
@[simp] theorem State.writeSym_answers (p : Nat) (c : SymCell) : (s.writeSym p c).answers = s.answers := rfl
@[simp] theorem State.writeSym_supplied (p : Nat) (c : SymCell) : (s.writeSym p c).supplied = s.supplied := rfl
@[simp] theorem State.writeSym_draw (p : Nat) (c : SymCell) : (s.writeSym p c).draw = s.draw := rfl
@[simp] theorem State.writeSym_freeIx (p : Nat) (c : SymCell) : (s.writeSym p c).freeIx = s.freeIx := rfl

/-! ### `State.setKeepCounts` -/

@[simp] theorem State.setKeepCounts_sym (k r : Word) : (s.setKeepCounts k r).sym = s.sym := rfl
@[simp] theorem State.setKeepCounts_buf0 (k r : Word) : (s.setKeepCounts k r).buf0 = s.buf0 := rfl
@[simp] theorem State.setKeepCounts_buf1 (k r : Word) : (s.setKeepCounts k r).buf1 = s.buf1 := rfl
@[simp] theorem State.setKeepCounts_cur (k r : Word) : (s.setKeepCounts k r).cur = s.cur := rfl
@[simp] theorem State.setKeepCounts_out (k r : Word) : (s.setKeepCounts k r).out = s.out := rfl
@[simp] theorem State.setKeepCounts_n (k r : Word) : (s.setKeepCounts k r).n = s.n := rfl
@[simp] theorem State.setKeepCounts_mrn (k r : Word) : (s.setKeepCounts k r).mrn = s.mrn := rfl
@[simp] theorem State.setKeepCounts_mrw (k r : Word) : (s.setKeepCounts k r).mrw = s.mrw := rfl
@[simp] theorem State.setKeepCounts_keepcnt (k r : Word) : (s.setKeepCounts k r).keepcnt = k := rfl
@[simp] theorem State.setKeepCounts_repeatcnt (k r : Word) : (s.setKeepCounts k r).repeatcnt = r := rfl
@[simp] theorem State.setKeepCounts_widecnt (k r : Word) : (s.setKeepCounts k r).widecnt = s.widecnt := rfl
@[simp] theorem State.setKeepCounts_mbytes (k r : Word) : (s.setKeepCounts k r).mbytes = s.mbytes := rfl
@[simp] theorem State.setKeepCounts_pc (k r : Word) : (s.setKeepCounts k r).pc = s.pc := rfl
@[simp] theorem State.setKeepCounts_busy (k r : Word) : (s.setKeepCounts k r).busy = s.busy := rfl
@[simp] theorem State.setKeepCounts_done (k r : Word) : (s.setKeepCounts k r).done = s.done := rfl
@[simp] theorem State.setKeepCounts_cfgerr (k r : Word) : (s.setKeepCounts k r).cfgerr = s.cfgerr := rfl
@[simp] theorem State.setKeepCounts_errcode (k r : Word) : (s.setKeepCounts k r).errcode = s.errcode := rfl
@[simp] theorem State.setKeepCounts_nmax (k r : Word) : (s.setKeepCounts k r).nmax = s.nmax := rfl
@[simp] theorem State.setKeepCounts_inbox (k r : Word) : (s.setKeepCounts k r).inbox = s.inbox := rfl
@[simp] theorem State.setKeepCounts_answers (k r : Word) : (s.setKeepCounts k r).answers = s.answers := rfl
@[simp] theorem State.setKeepCounts_supplied (k r : Word) : (s.setKeepCounts k r).supplied = s.supplied := rfl
@[simp] theorem State.setKeepCounts_draw (k r : Word) : (s.setKeepCounts k r).draw = s.draw := rfl
@[simp] theorem State.setKeepCounts_freeIx (k r : Word) : (s.setKeepCounts k r).freeIx = s.freeIx := rfl

/-! ### `State.setWideCount` -/

@[simp] theorem State.setWideCount_sym (w : Word) : (s.setWideCount w).sym = s.sym := rfl
@[simp] theorem State.setWideCount_buf0 (w : Word) : (s.setWideCount w).buf0 = s.buf0 := rfl
@[simp] theorem State.setWideCount_buf1 (w : Word) : (s.setWideCount w).buf1 = s.buf1 := rfl
@[simp] theorem State.setWideCount_cur (w : Word) : (s.setWideCount w).cur = s.cur := rfl
@[simp] theorem State.setWideCount_out (w : Word) : (s.setWideCount w).out = s.out := rfl
@[simp] theorem State.setWideCount_n (w : Word) : (s.setWideCount w).n = s.n := rfl
@[simp] theorem State.setWideCount_mrn (w : Word) : (s.setWideCount w).mrn = s.mrn := rfl
@[simp] theorem State.setWideCount_mrw (w : Word) : (s.setWideCount w).mrw = s.mrw := rfl
@[simp] theorem State.setWideCount_keepcnt (w : Word) : (s.setWideCount w).keepcnt = s.keepcnt := rfl
@[simp] theorem State.setWideCount_repeatcnt (w : Word) : (s.setWideCount w).repeatcnt = s.repeatcnt := rfl
@[simp] theorem State.setWideCount_widecnt (w : Word) : (s.setWideCount w).widecnt = w := rfl
@[simp] theorem State.setWideCount_mbytes (w : Word) : (s.setWideCount w).mbytes = s.mbytes := rfl
@[simp] theorem State.setWideCount_pc (w : Word) : (s.setWideCount w).pc = s.pc := rfl
@[simp] theorem State.setWideCount_busy (w : Word) : (s.setWideCount w).busy = s.busy := rfl
@[simp] theorem State.setWideCount_done (w : Word) : (s.setWideCount w).done = s.done := rfl
@[simp] theorem State.setWideCount_cfgerr (w : Word) : (s.setWideCount w).cfgerr = s.cfgerr := rfl
@[simp] theorem State.setWideCount_errcode (w : Word) : (s.setWideCount w).errcode = s.errcode := rfl
@[simp] theorem State.setWideCount_nmax (w : Word) : (s.setWideCount w).nmax = s.nmax := rfl
@[simp] theorem State.setWideCount_inbox (w : Word) : (s.setWideCount w).inbox = s.inbox := rfl
@[simp] theorem State.setWideCount_answers (w : Word) : (s.setWideCount w).answers = s.answers := rfl
@[simp] theorem State.setWideCount_supplied (w : Word) : (s.setWideCount w).supplied = s.supplied := rfl
@[simp] theorem State.setWideCount_draw (w : Word) : (s.setWideCount w).draw = s.draw := rfl
@[simp] theorem State.setWideCount_freeIx (w : Word) : (s.setWideCount w).freeIx = s.freeIx := rfl

/-! ### `State.setMbytes` -/

@[simp] theorem State.setMbytes_sym (m : Word) : (s.setMbytes m).sym = s.sym := rfl
@[simp] theorem State.setMbytes_buf0 (m : Word) : (s.setMbytes m).buf0 = s.buf0 := rfl
@[simp] theorem State.setMbytes_buf1 (m : Word) : (s.setMbytes m).buf1 = s.buf1 := rfl
@[simp] theorem State.setMbytes_cur (m : Word) : (s.setMbytes m).cur = s.cur := rfl
@[simp] theorem State.setMbytes_out (m : Word) : (s.setMbytes m).out = s.out := rfl
@[simp] theorem State.setMbytes_n (m : Word) : (s.setMbytes m).n = s.n := rfl
@[simp] theorem State.setMbytes_mrn (m : Word) : (s.setMbytes m).mrn = s.mrn := rfl
@[simp] theorem State.setMbytes_mrw (m : Word) : (s.setMbytes m).mrw = s.mrw := rfl
@[simp] theorem State.setMbytes_keepcnt (m : Word) : (s.setMbytes m).keepcnt = s.keepcnt := rfl
@[simp] theorem State.setMbytes_repeatcnt (m : Word) : (s.setMbytes m).repeatcnt = s.repeatcnt := rfl
@[simp] theorem State.setMbytes_widecnt (m : Word) : (s.setMbytes m).widecnt = s.widecnt := rfl
@[simp] theorem State.setMbytes_mbytes (m : Word) : (s.setMbytes m).mbytes = m := rfl
@[simp] theorem State.setMbytes_pc (m : Word) : (s.setMbytes m).pc = s.pc := rfl
@[simp] theorem State.setMbytes_busy (m : Word) : (s.setMbytes m).busy = s.busy := rfl
@[simp] theorem State.setMbytes_done (m : Word) : (s.setMbytes m).done = s.done := rfl
@[simp] theorem State.setMbytes_cfgerr (m : Word) : (s.setMbytes m).cfgerr = s.cfgerr := rfl
@[simp] theorem State.setMbytes_errcode (m : Word) : (s.setMbytes m).errcode = s.errcode := rfl
@[simp] theorem State.setMbytes_nmax (m : Word) : (s.setMbytes m).nmax = s.nmax := rfl
@[simp] theorem State.setMbytes_inbox (m : Word) : (s.setMbytes m).inbox = s.inbox := rfl
@[simp] theorem State.setMbytes_answers (m : Word) : (s.setMbytes m).answers = s.answers := rfl
@[simp] theorem State.setMbytes_supplied (m : Word) : (s.setMbytes m).supplied = s.supplied := rfl
@[simp] theorem State.setMbytes_draw (m : Word) : (s.setMbytes m).draw = s.draw := rfl
@[simp] theorem State.setMbytes_freeIx (m : Word) : (s.setMbytes m).freeIx = s.freeIx := rfl

/-! ### `State.nextFree` -/

@[simp] theorem State.nextFree_sym : (s.nextFree).sym = s.sym := rfl
@[simp] theorem State.nextFree_buf0 : (s.nextFree).buf0 = s.buf0 := rfl
@[simp] theorem State.nextFree_buf1 : (s.nextFree).buf1 = s.buf1 := rfl
@[simp] theorem State.nextFree_cur : (s.nextFree).cur = s.cur := rfl
@[simp] theorem State.nextFree_out : (s.nextFree).out = s.out := rfl
@[simp] theorem State.nextFree_n : (s.nextFree).n = s.n := rfl
@[simp] theorem State.nextFree_mrn : (s.nextFree).mrn = s.mrn := rfl
@[simp] theorem State.nextFree_mrw : (s.nextFree).mrw = s.mrw := rfl
@[simp] theorem State.nextFree_keepcnt : (s.nextFree).keepcnt = s.keepcnt := rfl
@[simp] theorem State.nextFree_repeatcnt : (s.nextFree).repeatcnt = s.repeatcnt := rfl
@[simp] theorem State.nextFree_widecnt : (s.nextFree).widecnt = s.widecnt := rfl
@[simp] theorem State.nextFree_mbytes : (s.nextFree).mbytes = s.mbytes := rfl
@[simp] theorem State.nextFree_pc : (s.nextFree).pc = s.pc := rfl
@[simp] theorem State.nextFree_busy : (s.nextFree).busy = s.busy := rfl
@[simp] theorem State.nextFree_done : (s.nextFree).done = s.done := rfl
@[simp] theorem State.nextFree_cfgerr : (s.nextFree).cfgerr = s.cfgerr := rfl
@[simp] theorem State.nextFree_errcode : (s.nextFree).errcode = s.errcode := rfl
@[simp] theorem State.nextFree_nmax : (s.nextFree).nmax = s.nmax := rfl
@[simp] theorem State.nextFree_inbox : (s.nextFree).inbox = s.inbox := rfl
@[simp] theorem State.nextFree_answers : (s.nextFree).answers = s.answers := rfl
@[simp] theorem State.nextFree_supplied : (s.nextFree).supplied = s.supplied := rfl
@[simp] theorem State.nextFree_draw : (s.nextFree).draw = s.draw := rfl
@[simp] theorem State.nextFree_freeIx : (s.nextFree).freeIx = s.freeIx + 1 := rfl

/-! ### `State.raiseCfgError` -/

@[simp] theorem State.raiseCfgError_sym (c : BitVec 4) : (s.raiseCfgError c).sym = s.sym := rfl
@[simp] theorem State.raiseCfgError_buf0 (c : BitVec 4) : (s.raiseCfgError c).buf0 = s.buf0 := rfl
@[simp] theorem State.raiseCfgError_buf1 (c : BitVec 4) : (s.raiseCfgError c).buf1 = s.buf1 := rfl
@[simp] theorem State.raiseCfgError_cur (c : BitVec 4) : (s.raiseCfgError c).cur = s.cur := rfl
@[simp] theorem State.raiseCfgError_out (c : BitVec 4) : (s.raiseCfgError c).out = s.out := rfl
@[simp] theorem State.raiseCfgError_n (c : BitVec 4) : (s.raiseCfgError c).n = s.n := rfl
@[simp] theorem State.raiseCfgError_mrn (c : BitVec 4) : (s.raiseCfgError c).mrn = s.mrn := rfl
@[simp] theorem State.raiseCfgError_mrw (c : BitVec 4) : (s.raiseCfgError c).mrw = s.mrw := rfl
@[simp] theorem State.raiseCfgError_keepcnt (c : BitVec 4) : (s.raiseCfgError c).keepcnt = s.keepcnt := rfl
@[simp] theorem State.raiseCfgError_repeatcnt (c : BitVec 4) : (s.raiseCfgError c).repeatcnt = s.repeatcnt := rfl
@[simp] theorem State.raiseCfgError_widecnt (c : BitVec 4) : (s.raiseCfgError c).widecnt = s.widecnt := rfl
@[simp] theorem State.raiseCfgError_mbytes (c : BitVec 4) : (s.raiseCfgError c).mbytes = s.mbytes := rfl
@[simp] theorem State.raiseCfgError_pc (c : BitVec 4) : (s.raiseCfgError c).pc = s.pc := rfl
@[simp] theorem State.raiseCfgError_busy (c : BitVec 4) : (s.raiseCfgError c).busy = s.busy := rfl
@[simp] theorem State.raiseCfgError_done (c : BitVec 4) : (s.raiseCfgError c).done = s.done := rfl
@[simp] theorem State.raiseCfgError_cfgerr (c : BitVec 4) : (s.raiseCfgError c).cfgerr = true := rfl
@[simp] theorem State.raiseCfgError_errcode (c : BitVec 4) : (s.raiseCfgError c).errcode = c := rfl
@[simp] theorem State.raiseCfgError_nmax (c : BitVec 4) : (s.raiseCfgError c).nmax = s.nmax := rfl
@[simp] theorem State.raiseCfgError_inbox (c : BitVec 4) : (s.raiseCfgError c).inbox = s.inbox := rfl
@[simp] theorem State.raiseCfgError_answers (c : BitVec 4) : (s.raiseCfgError c).answers = s.answers := rfl
@[simp] theorem State.raiseCfgError_supplied (c : BitVec 4) : (s.raiseCfgError c).supplied = s.supplied := rfl
@[simp] theorem State.raiseCfgError_draw (c : BitVec 4) : (s.raiseCfgError c).draw = s.draw := rfl
@[simp] theorem State.raiseCfgError_freeIx (c : BitVec 4) : (s.raiseCfgError c).freeIx = s.freeIx := rfl

/-! ### `State.clearResult` -/

@[simp] theorem State.clearResult_sym : (s.clearResult).sym = s.sym := rfl
@[simp] theorem State.clearResult_buf0 : (s.clearResult).buf0 = s.buf0 := rfl
@[simp] theorem State.clearResult_buf1 : (s.clearResult).buf1 = s.buf1 := rfl
@[simp] theorem State.clearResult_cur : (s.clearResult).cur = s.cur := rfl
@[simp] theorem State.clearResult_out : (s.clearResult).out = s.out := rfl
@[simp] theorem State.clearResult_n : (s.clearResult).n = s.n := rfl
@[simp] theorem State.clearResult_mrn : (s.clearResult).mrn = s.mrn := rfl
@[simp] theorem State.clearResult_mrw : (s.clearResult).mrw = s.mrw := rfl
@[simp] theorem State.clearResult_keepcnt : (s.clearResult).keepcnt = s.keepcnt := rfl
@[simp] theorem State.clearResult_repeatcnt : (s.clearResult).repeatcnt = s.repeatcnt := rfl
@[simp] theorem State.clearResult_widecnt : (s.clearResult).widecnt = s.widecnt := rfl
@[simp] theorem State.clearResult_mbytes : (s.clearResult).mbytes = s.mbytes := rfl
@[simp] theorem State.clearResult_pc : (s.clearResult).pc = s.pc := rfl
@[simp] theorem State.clearResult_busy : (s.clearResult).busy = s.busy := rfl
@[simp] theorem State.clearResult_done : (s.clearResult).done = false := rfl
@[simp] theorem State.clearResult_cfgerr : (s.clearResult).cfgerr = false := rfl
@[simp] theorem State.clearResult_errcode : (s.clearResult).errcode = 0#4 := rfl
@[simp] theorem State.clearResult_nmax : (s.clearResult).nmax = s.nmax := rfl
@[simp] theorem State.clearResult_inbox : (s.clearResult).inbox = s.inbox := rfl
@[simp] theorem State.clearResult_answers : (s.clearResult).answers = s.answers := rfl
@[simp] theorem State.clearResult_supplied : (s.clearResult).supplied = s.supplied := rfl
@[simp] theorem State.clearResult_draw : (s.clearResult).draw = s.draw := rfl
@[simp] theorem State.clearResult_freeIx : (s.clearResult).freeIx = s.freeIx := rfl

/-! ### `State.beginEncode` -/

@[simp] theorem State.beginEncode_sym : (s.beginEncode).sym = s.sym := rfl
@[simp] theorem State.beginEncode_buf0 : (s.beginEncode).buf0 = s.buf0 := rfl
@[simp] theorem State.beginEncode_buf1 : (s.beginEncode).buf1 = s.buf1 := rfl
@[simp] theorem State.beginEncode_cur : (s.beginEncode).cur = BankId.bank0 := rfl
@[simp] theorem State.beginEncode_out : (s.beginEncode).out = s.out := rfl
@[simp] theorem State.beginEncode_n : (s.beginEncode).n = s.n := rfl
@[simp] theorem State.beginEncode_mrn : (s.beginEncode).mrn = s.mrn := rfl
@[simp] theorem State.beginEncode_mrw : (s.beginEncode).mrw = s.mrw := rfl
@[simp] theorem State.beginEncode_keepcnt : (s.beginEncode).keepcnt = s.keepcnt := rfl
@[simp] theorem State.beginEncode_repeatcnt : (s.beginEncode).repeatcnt = s.repeatcnt := rfl
@[simp] theorem State.beginEncode_widecnt : (s.beginEncode).widecnt = s.widecnt := rfl
@[simp] theorem State.beginEncode_mbytes : (s.beginEncode).mbytes = s.mbytes := rfl
@[simp] theorem State.beginEncode_pc : (s.beginEncode).pc = 0#8 := rfl
@[simp] theorem State.beginEncode_busy : (s.beginEncode).busy = true := rfl
@[simp] theorem State.beginEncode_done : (s.beginEncode).done = s.done := rfl
@[simp] theorem State.beginEncode_cfgerr : (s.beginEncode).cfgerr = s.cfgerr := rfl
@[simp] theorem State.beginEncode_errcode : (s.beginEncode).errcode = s.errcode := rfl
@[simp] theorem State.beginEncode_nmax : (s.beginEncode).nmax = s.nmax := rfl
@[simp] theorem State.beginEncode_inbox : (s.beginEncode).inbox = s.inbox := rfl
@[simp] theorem State.beginEncode_answers : (s.beginEncode).answers = s.answers := rfl
@[simp] theorem State.beginEncode_supplied : (s.beginEncode).supplied = s.supplied := rfl
@[simp] theorem State.beginEncode_draw : (s.beginEncode).draw = s.draw := rfl
@[simp] theorem State.beginEncode_freeIx : (s.beginEncode).freeIx = s.freeIx := rfl

/-! ### `State.finishFlags` -/

@[simp] theorem State.finishFlags_sym : (s.finishFlags).sym = s.sym := rfl
@[simp] theorem State.finishFlags_buf0 : (s.finishFlags).buf0 = s.buf0 := rfl
@[simp] theorem State.finishFlags_buf1 : (s.finishFlags).buf1 = s.buf1 := rfl
@[simp] theorem State.finishFlags_cur : (s.finishFlags).cur = s.cur := rfl
@[simp] theorem State.finishFlags_out : (s.finishFlags).out = s.out := rfl
@[simp] theorem State.finishFlags_n : (s.finishFlags).n = s.n := rfl
@[simp] theorem State.finishFlags_mrn : (s.finishFlags).mrn = s.mrn := rfl
@[simp] theorem State.finishFlags_mrw : (s.finishFlags).mrw = s.mrw := rfl
@[simp] theorem State.finishFlags_keepcnt : (s.finishFlags).keepcnt = s.keepcnt := rfl
@[simp] theorem State.finishFlags_repeatcnt : (s.finishFlags).repeatcnt = s.repeatcnt := rfl
@[simp] theorem State.finishFlags_widecnt : (s.finishFlags).widecnt = s.widecnt := rfl
@[simp] theorem State.finishFlags_mbytes : (s.finishFlags).mbytes = s.mbytes := rfl
@[simp] theorem State.finishFlags_pc : (s.finishFlags).pc = s.pc := rfl
@[simp] theorem State.finishFlags_busy : (s.finishFlags).busy = false := rfl
@[simp] theorem State.finishFlags_done : (s.finishFlags).done = true := rfl
@[simp] theorem State.finishFlags_cfgerr : (s.finishFlags).cfgerr = s.cfgerr := rfl
@[simp] theorem State.finishFlags_errcode : (s.finishFlags).errcode = s.errcode := rfl
@[simp] theorem State.finishFlags_nmax : (s.finishFlags).nmax = s.nmax := rfl
@[simp] theorem State.finishFlags_inbox : (s.finishFlags).inbox = s.inbox := rfl
@[simp] theorem State.finishFlags_answers : (s.finishFlags).answers = s.answers := rfl
@[simp] theorem State.finishFlags_supplied : (s.finishFlags).supplied = s.supplied := rfl
@[simp] theorem State.finishFlags_draw : (s.finishFlags).draw = s.draw := rfl
@[simp] theorem State.finishFlags_freeIx : (s.finishFlags).freeIx = s.freeIx := rfl

/-! ### `State.abandon` -/

@[simp] theorem State.abandon_sym : (s.abandon).sym = s.sym := rfl
@[simp] theorem State.abandon_buf0 : (s.abandon).buf0 = s.buf0 := rfl
@[simp] theorem State.abandon_buf1 : (s.abandon).buf1 = s.buf1 := rfl
@[simp] theorem State.abandon_cur : (s.abandon).cur = s.cur := rfl
@[simp] theorem State.abandon_out : (s.abandon).out = s.out := rfl
@[simp] theorem State.abandon_n : (s.abandon).n = s.n := rfl
@[simp] theorem State.abandon_mrn : (s.abandon).mrn = s.mrn := rfl
@[simp] theorem State.abandon_mrw : (s.abandon).mrw = s.mrw := rfl
@[simp] theorem State.abandon_keepcnt : (s.abandon).keepcnt = s.keepcnt := rfl
@[simp] theorem State.abandon_repeatcnt : (s.abandon).repeatcnt = s.repeatcnt := rfl
@[simp] theorem State.abandon_widecnt : (s.abandon).widecnt = s.widecnt := rfl
@[simp] theorem State.abandon_mbytes : (s.abandon).mbytes = s.mbytes := rfl
@[simp] theorem State.abandon_pc : (s.abandon).pc = s.pc := rfl
@[simp] theorem State.abandon_busy : (s.abandon).busy = false := rfl
@[simp] theorem State.abandon_done : (s.abandon).done = s.done := rfl
@[simp] theorem State.abandon_cfgerr : (s.abandon).cfgerr = s.cfgerr := rfl
@[simp] theorem State.abandon_errcode : (s.abandon).errcode = s.errcode := rfl
@[simp] theorem State.abandon_nmax : (s.abandon).nmax = s.nmax := rfl
@[simp] theorem State.abandon_inbox : (s.abandon).inbox = s.inbox := rfl
@[simp] theorem State.abandon_answers : (s.abandon).answers = s.answers := rfl
@[simp] theorem State.abandon_supplied : (s.abandon).supplied = s.supplied := rfl
@[simp] theorem State.abandon_draw : (s.abandon).draw = s.draw := rfl
@[simp] theorem State.abandon_freeIx : (s.abandon).freeIx = s.freeIx := rfl

/-! ### `State.dropSupplied` -/

@[simp] theorem State.dropSupplied_sym : (s.dropSupplied).sym = s.sym := rfl
@[simp] theorem State.dropSupplied_buf0 : (s.dropSupplied).buf0 = s.buf0 := rfl
@[simp] theorem State.dropSupplied_buf1 : (s.dropSupplied).buf1 = s.buf1 := rfl
@[simp] theorem State.dropSupplied_cur : (s.dropSupplied).cur = s.cur := rfl
@[simp] theorem State.dropSupplied_out : (s.dropSupplied).out = s.out := rfl
@[simp] theorem State.dropSupplied_n : (s.dropSupplied).n = s.n := rfl
@[simp] theorem State.dropSupplied_mrn : (s.dropSupplied).mrn = s.mrn := rfl
@[simp] theorem State.dropSupplied_mrw : (s.dropSupplied).mrw = s.mrw := rfl
@[simp] theorem State.dropSupplied_keepcnt : (s.dropSupplied).keepcnt = s.keepcnt := rfl
@[simp] theorem State.dropSupplied_repeatcnt : (s.dropSupplied).repeatcnt = s.repeatcnt := rfl
@[simp] theorem State.dropSupplied_widecnt : (s.dropSupplied).widecnt = s.widecnt := rfl
@[simp] theorem State.dropSupplied_mbytes : (s.dropSupplied).mbytes = s.mbytes := rfl
@[simp] theorem State.dropSupplied_pc : (s.dropSupplied).pc = s.pc := rfl
@[simp] theorem State.dropSupplied_busy : (s.dropSupplied).busy = s.busy := rfl
@[simp] theorem State.dropSupplied_done : (s.dropSupplied).done = s.done := rfl
@[simp] theorem State.dropSupplied_cfgerr : (s.dropSupplied).cfgerr = s.cfgerr := rfl
@[simp] theorem State.dropSupplied_errcode : (s.dropSupplied).errcode = s.errcode := rfl
@[simp] theorem State.dropSupplied_nmax : (s.dropSupplied).nmax = s.nmax := rfl
@[simp] theorem State.dropSupplied_inbox : (s.dropSupplied).inbox = s.inbox := rfl
@[simp] theorem State.dropSupplied_answers : (s.dropSupplied).answers = s.answers := rfl
@[simp] theorem State.dropSupplied_supplied : (s.dropSupplied).supplied = s.supplied.tail := rfl
@[simp] theorem State.dropSupplied_draw : (s.dropSupplied).draw = s.draw := rfl
@[simp] theorem State.dropSupplied_freeIx : (s.dropSupplied).freeIx = s.freeIx := rfl

/-! ### `State.supplyWord` -/

@[simp] theorem State.supplyWord_sym (w : PassWord) : (s.supplyWord w).sym = s.sym := rfl
@[simp] theorem State.supplyWord_buf0 (w : PassWord) : (s.supplyWord w).buf0 = s.buf0 := rfl
@[simp] theorem State.supplyWord_buf1 (w : PassWord) : (s.supplyWord w).buf1 = s.buf1 := rfl
@[simp] theorem State.supplyWord_cur (w : PassWord) : (s.supplyWord w).cur = s.cur := rfl
@[simp] theorem State.supplyWord_out (w : PassWord) : (s.supplyWord w).out = s.out := rfl
@[simp] theorem State.supplyWord_n (w : PassWord) : (s.supplyWord w).n = s.n := rfl
@[simp] theorem State.supplyWord_mrn (w : PassWord) : (s.supplyWord w).mrn = s.mrn := rfl
@[simp] theorem State.supplyWord_mrw (w : PassWord) : (s.supplyWord w).mrw = s.mrw := rfl
@[simp] theorem State.supplyWord_keepcnt (w : PassWord) : (s.supplyWord w).keepcnt = s.keepcnt := rfl
@[simp] theorem State.supplyWord_repeatcnt (w : PassWord) : (s.supplyWord w).repeatcnt = s.repeatcnt := rfl
@[simp] theorem State.supplyWord_widecnt (w : PassWord) : (s.supplyWord w).widecnt = s.widecnt := rfl
@[simp] theorem State.supplyWord_mbytes (w : PassWord) : (s.supplyWord w).mbytes = s.mbytes := rfl
@[simp] theorem State.supplyWord_pc (w : PassWord) : (s.supplyWord w).pc = s.pc := rfl
@[simp] theorem State.supplyWord_busy (w : PassWord) : (s.supplyWord w).busy = true := rfl
@[simp] theorem State.supplyWord_done (w : PassWord) : (s.supplyWord w).done = s.done := rfl
@[simp] theorem State.supplyWord_cfgerr (w : PassWord) : (s.supplyWord w).cfgerr = s.cfgerr := rfl
@[simp] theorem State.supplyWord_errcode (w : PassWord) : (s.supplyWord w).errcode = s.errcode := rfl
@[simp] theorem State.supplyWord_nmax (w : PassWord) : (s.supplyWord w).nmax = s.nmax := rfl
@[simp] theorem State.supplyWord_inbox (w : PassWord) : (s.supplyWord w).inbox = Event.pass :: s.inbox := rfl
@[simp] theorem State.supplyWord_answers (w : PassWord) : (s.supplyWord w).answers = s.answers := rfl
@[simp] theorem State.supplyWord_supplied (w : PassWord) : (s.supplyWord w).supplied = w :: s.supplied := rfl
@[simp] theorem State.supplyWord_draw (w : PassWord) : (s.supplyWord w).draw = s.draw := rfl
@[simp] theorem State.supplyWord_freeIx (w : PassWord) : (s.supplyWord w).freeIx = s.freeIx := rfl

/-! ### `State.recordRead` -/

@[simp] theorem State.recordRead_sym (sp : Space) (ix : Nat) : (s.recordRead sp ix).sym = s.sym := rfl
@[simp] theorem State.recordRead_buf0 (sp : Space) (ix : Nat) : (s.recordRead sp ix).buf0 = s.buf0 := rfl
@[simp] theorem State.recordRead_buf1 (sp : Space) (ix : Nat) : (s.recordRead sp ix).buf1 = s.buf1 := rfl
@[simp] theorem State.recordRead_cur (sp : Space) (ix : Nat) : (s.recordRead sp ix).cur = s.cur := rfl
@[simp] theorem State.recordRead_out (sp : Space) (ix : Nat) : (s.recordRead sp ix).out = s.out := rfl
@[simp] theorem State.recordRead_n (sp : Space) (ix : Nat) : (s.recordRead sp ix).n = s.n := rfl
@[simp] theorem State.recordRead_mrn (sp : Space) (ix : Nat) : (s.recordRead sp ix).mrn = s.mrn := rfl
@[simp] theorem State.recordRead_mrw (sp : Space) (ix : Nat) : (s.recordRead sp ix).mrw = s.mrw := rfl
@[simp] theorem State.recordRead_keepcnt (sp : Space) (ix : Nat) : (s.recordRead sp ix).keepcnt = s.keepcnt := rfl
@[simp] theorem State.recordRead_repeatcnt (sp : Space) (ix : Nat) : (s.recordRead sp ix).repeatcnt = s.repeatcnt := rfl
@[simp] theorem State.recordRead_widecnt (sp : Space) (ix : Nat) : (s.recordRead sp ix).widecnt = s.widecnt := rfl
@[simp] theorem State.recordRead_mbytes (sp : Space) (ix : Nat) : (s.recordRead sp ix).mbytes = s.mbytes := rfl
@[simp] theorem State.recordRead_pc (sp : Space) (ix : Nat) : (s.recordRead sp ix).pc = s.pc := rfl
@[simp] theorem State.recordRead_busy (sp : Space) (ix : Nat) : (s.recordRead sp ix).busy = s.busy := rfl
@[simp] theorem State.recordRead_done (sp : Space) (ix : Nat) : (s.recordRead sp ix).done = s.done := rfl
@[simp] theorem State.recordRead_cfgerr (sp : Space) (ix : Nat) : (s.recordRead sp ix).cfgerr = s.cfgerr := rfl
@[simp] theorem State.recordRead_errcode (sp : Space) (ix : Nat) : (s.recordRead sp ix).errcode = s.errcode := rfl
@[simp] theorem State.recordRead_nmax (sp : Space) (ix : Nat) : (s.recordRead sp ix).nmax = s.nmax := rfl
@[simp] theorem State.recordRead_inbox (sp : Space) (ix : Nat) : (s.recordRead sp ix).inbox = s.inbox := rfl
@[simp] theorem State.recordRead_answers (sp : Space) (ix : Nat) : (s.recordRead sp ix).answers = s.hostRead sp ix :: s.answers := rfl
@[simp] theorem State.recordRead_supplied (sp : Space) (ix : Nat) : (s.recordRead sp ix).supplied = s.supplied := rfl
@[simp] theorem State.recordRead_draw (sp : Space) (ix : Nat) : (s.recordRead sp ix).draw = s.draw := rfl
@[simp] theorem State.recordRead_freeIx (sp : Space) (ix : Nat) : (s.recordRead sp ix).freeIx = s.freeIx := rfl

end Sys2Proof.Machine
end

