-- ==== Sys2Proof/Laws/Ops.lean ====
section
/-! SUPPORT. What each shared operation can do, said once: the accessors after the updates, and one inversion lemma for
each guard ("if it answers next t, then …"). -/

namespace Sys2Proof.Machine

variable (s : State)

/-! ## Accessors -/

@[simp] theorem BankId.other_other (k : BankId) : k.other.other = k := by cases k <;> rfl

theorem BankId.eq_or_eq_other (k l : BankId) : k = l ∨ k = l.other := by cases k <;> cases l <;> simp [BankId.other]

theorem State.symAt_eq_of_symCell {s t : State} {p : Nat} (h : t.symCell p = s.symCell p) : t.symAt p = s.symAt p := by
  rw [State.symAt, State.symAt, h]

/-! ## The state after a buffer pass -/

/-- The front bank after a buffer pass: the lanes below `G` as computed, the others as the back bank had them. -/
theorem State.front_bufferNext (f : Nat → Lane) (p : Nat) :
    (s.bufferNext f).front p = if p < s.lanes then f p else s.back p := by
  cases h : s.cur <;>
    simp only [State.bufferNext, State.front, State.back, State.laneAt, State.bank, State.advancePc_cur,
      State.swapBanks_cur, State.fillBack_cur, State.advancePc_draw, State.swapBanks_draw, State.fillBack_draw,
      State.advancePc_buf0, State.advancePc_buf1, State.swapBanks_buf0, State.swapBanks_buf1, BankId.other, h] <;>
    simp only [State.fillBack, h, Memory.read_fill] <;> split <;> rfl

/-- The back bank after a buffer pass is the front bank before it. -/
theorem State.back_bufferNext (f : Nat → Lane) (p : Nat) : (s.bufferNext f).back p = s.front p := by
  cases h : s.cur <;>
    simp [State.bufferNext, State.front, State.back, State.laneAt, State.bank, BankId.other, State.fillBack,
      State.swapBanks, State.advancePc, h]

@[simp] theorem State.bufferNext_cur (f : Nat → Lane) : (s.bufferNext f).cur = s.cur.other := rfl
@[simp] theorem State.bufferNext_pc (f : Nat → Lane) : (s.bufferNext f).pc = s.pc + 1#8 := rfl
@[simp] theorem State.bufferNext_sym (f : Nat → Lane) : (s.bufferNext f).sym = s.sym := rfl
@[simp] theorem State.bufferNext_out (f : Nat → Lane) : (s.bufferNext f).out = s.out := rfl
@[simp] theorem State.bufferNext_n (f : Nat → Lane) : (s.bufferNext f).n = s.n := rfl
@[simp] theorem State.bufferNext_mrn (f : Nat → Lane) : (s.bufferNext f).mrn = s.mrn := rfl
@[simp] theorem State.bufferNext_mrw (f : Nat → Lane) : (s.bufferNext f).mrw = s.mrw := rfl
@[simp] theorem State.bufferNext_keepcnt (f : Nat → Lane) : (s.bufferNext f).keepcnt = s.keepcnt := rfl
@[simp] theorem State.bufferNext_repeatcnt (f : Nat → Lane) : (s.bufferNext f).repeatcnt = s.repeatcnt := rfl
@[simp] theorem State.bufferNext_widecnt (f : Nat → Lane) : (s.bufferNext f).widecnt = s.widecnt := rfl
@[simp] theorem State.bufferNext_mbytes (f : Nat → Lane) : (s.bufferNext f).mbytes = s.mbytes := rfl
@[simp] theorem State.bufferNext_busy (f : Nat → Lane) : (s.bufferNext f).busy = s.busy := rfl
@[simp] theorem State.bufferNext_done (f : Nat → Lane) : (s.bufferNext f).done = s.done := rfl
@[simp] theorem State.bufferNext_cfgerr (f : Nat → Lane) : (s.bufferNext f).cfgerr = s.cfgerr := rfl
@[simp] theorem State.bufferNext_errcode (f : Nat → Lane) : (s.bufferNext f).errcode = s.errcode := rfl
@[simp] theorem State.bufferNext_nmax (f : Nat → Lane) : (s.bufferNext f).nmax = s.nmax := rfl
@[simp] theorem State.bufferNext_inbox (f : Nat → Lane) : (s.bufferNext f).inbox = s.inbox := rfl
@[simp] theorem State.bufferNext_answers (f : Nat → Lane) : (s.bufferNext f).answers = s.answers := rfl
@[simp] theorem State.bufferNext_supplied (f : Nat → Lane) : (s.bufferNext f).supplied = s.supplied := rfl
@[simp] theorem State.bufferNext_draw (f : Nat → Lane) : (s.bufferNext f).draw = s.draw := rfl
@[simp] theorem State.bufferNext_freeIx (f : Nat → Lane) : (s.bufferNext f).freeIx = s.freeIx := rfl

theorem State.bufferNext_buf0 (f : Nat → Lane) :
    (s.bufferNext f).buf0 = s.buf0 ∨ (s.bufferNext f).buf0 = Memory.fill s.buf0 s.lanes f := by
  cases h : s.cur <;> simp [State.bufferNext, State.fillBack, h]

theorem State.bufferNext_buf1 (f : Nat → Lane) :
    (s.bufferNext f).buf1 = s.buf1 ∨ (s.bufferNext f).buf1 = Memory.fill s.buf1 s.lanes f := by
  cases h : s.cur <;> simp [State.bufferNext, State.fillBack, h]

/-- An output byte after `OUT[0..G)` was written. -/
theorem State.outAt_fillOut (f : Nat → Byte) (d : Nat) :
    (s.fillOut f).outAt d = if d < s.lanes then f d else s.outAt d := by
  simp only [State.outAt, State.fillOut_out, State.fillOut_draw, Memory.read_fill]
  split <;> rfl

/-- A symbol cell after one was written. -/
theorem State.symCell_writeSym (p q : Nat) (c : SymCell) :
    (s.writeSym p c).symCell q = if q = p then c else s.symCell q := by
  simp only [State.symCell, State.writeSym_sym, State.writeSym_draw, Memory.read_write]
  split <;> rfl

/-! ## Guards -/

theorem State.lanesExist_iff : s.lanesExist = true ↔ s.n.toNat ≤ s.nmax := by simp [State.lanesExist]

theorem State.guardLanes_of_le (h : s.n.toNat ≤ s.nmax) (k : Host.Outcome State Fault Refusal) : s.guardLanes k = k := by
  rw [State.guardLanes, (s.lanesExist_iff).2 h]; rfl

theorem State.guardLanes_of_lt (h : s.nmax < s.n.toNat) (k : Host.Outcome State Fault Refusal) :
    s.guardLanes k = .fault .laneAbsent := by
  rw [State.guardLanes, if_neg]; rw [s.lanesExist_iff]; omega

theorem State.guardLanes_next {s t : State} {k : Host.Outcome State Fault Refusal} (h : s.guardLanes k = .next t) :
    s.n.toNat ≤ s.nmax ∧ k = .next t := by
  unfold State.guardLanes at h
  split at h
  · exact ⟨(s.lanesExist_iff).1 ‹_›, h⟩
  · cases h

theorem guardStep_of_legal {i : StepIx} (h : i ≠ 31#5) (k : Host.Outcome State Fault Refusal) : guardStep i k = k := by
  rw [guardStep, if_pos]; simpa [legalStep] using h

theorem guardStep_next {i : StepIx} {k : Host.Outcome State Fault Refusal} {t : State} (h : guardStep i k = .next t) :
    i ≠ 31#5 ∧ k = .next t := by
  unfold guardStep at h
  split at h
  · exact ⟨by simpa [legalStep] using ‹legalStep i = true›, h⟩
  · cases h

theorem State.symIndexOk_iff (b : Word) :
    s.symIndexOk b = true ↔ 0 ≤ b.toInt ∧ b.toInt < (s.n.toNat : Int) := by
  simp [State.symIndexOk]

theorem Lane.valid_iff (c : Lane) : c.valid = true ↔ c.b ≠ noLane := by simp [Lane.valid]

theorem State.gatherOk_iff (bound : Nat) :
    s.gatherOk bound = true ↔
      ∀ p, p < bound → (s.front p).b ≠ noLane → 0 ≤ (s.front p).b.toInt ∧ (s.front p).b.toInt < (s.n.toNat : Int) := by
  simp only [State.gatherOk, List.all_eq_true, List.mem_range, Bool.or_eq_true, Bool.not_eq_true', State.symIndexOk_iff,
    Lane.valid, bne_eq_false_iff_eq]
  exact forall₂_congr fun p _ => Decidable.or_iff_not_imp_left

theorem State.guardGather_next {s t : State} {bound : Nat} {k : Host.Outcome State Fault Refusal}
    (h : s.guardGather bound k = .next t) : s.n.toNat ≤ s.nmax ∧ s.gatherOk bound = true ∧ k = .next t := by
  obtain ⟨hn, h⟩ := State.guardLanes_next h
  split at h
  · exact ⟨hn, ‹_›, h⟩
  · cases h

theorem State.guardGather_of_ok {bound : Nat} (hn : s.n.toNat ≤ s.nmax) (hg : s.gatherOk bound = true)
    (k : Host.Outcome State Fault Refusal) : s.guardGather bound k = k := by
  rw [State.guardGather, s.guardLanes_of_le hn, if_pos hg]

/-- What a scalar readback can do when it answers next. -/
theorem State.readback_next {s t : State} {k : Word → State → State} (h : s.readback k = .next t) :
    (s.n = 0#32 ∧ t = k (Config.freeReadback s.freeIx) s.nextFree) ∨
    (s.n ≠ 0#32 ∧ s.n.toNat - 1 < 2 * s.nmax ∧ t = k (s.front (s.n.toNat - 1)).a s) := by
  unfold State.readback at h
  split at h
  · exact .inl ⟨‹_›, by injection h with h; exact h.symm⟩
  · split at h
    · exact .inr ⟨‹_›, ‹_›, by injection h with h; exact h.symm⟩
    · cases h

end Sys2Proof.Machine
end

