-- ==== Sys2Proof/Laws/Exec.lean ====
section
/-! SUPPORT. What a pass operation can do, said once: when `exec` answers next, which state it is (one case for each kind
of pass). -/

namespace Sys2Proof.Machine

/-- The lane function of a buffer pass, over all `G` lanes. -/
def State.passLane (s : State) : Instr → Nat → Lane
  | .rli => s.sourceLane fun _ => ⟨1#32, 0#32⟩
  | .rls i => s.sourceLane (s.rlsLane i)
  | .sgk => s.sourceLane s.sgkLane
  | .scn i => s.sourceLane (s.scnLane i)
  | .cmp i => s.sourceLane (s.cmpLane i)
  | .sgw => s.sourceLane s.sgwLane
  | .exp i => s.expLane i
  | .rdk | .rdw | .pck | .fin => s.front

/-- A buffer pass that answers next leaves `bufferNext` of its lane function, and its lanes exist. -/
theorem exec_bufferPass_next {i : Instr} {s t : State} (hb : i.isBufferPass = true) (h : exec i s = .next t) :
    s.n.toNat ≤ s.nmax ∧ t = s.bufferNext (s.passLane i) := by
  have key : ∀ {o : Host.Outcome State Fault Refusal} {f : Nat → Lane},
      s.n.toNat ≤ s.nmax ∧ Host.Outcome.next (s.bufferNext f) = (.next t : Host.Outcome State Fault Refusal) →
      s.n.toNat ≤ s.nmax ∧ t = s.bufferNext f := by
    rintro o f ⟨hn, h⟩
    injection h with h
    exact ⟨hn, h.symm⟩
  cases i with
  | rli => exact key (o := .next s) (State.guardLanes_next h)
  | rls k => exact key (o := .next s) (State.guardLanes_next (guardStep_next h).2)
  | sgk => exact key (o := .next s) (State.guardLanes_next h)
  | scn k => exact key (o := .next s) (State.guardLanes_next (guardStep_next h).2)
  | cmp k => exact key (o := .next s) (State.guardLanes_next (guardStep_next h).2)
  | sgw =>
    obtain ⟨hn, _, h⟩ := State.guardGather_next h
    exact key (o := .next s) ⟨hn, h⟩
  | exp k =>
    obtain ⟨hn, _, h⟩ := State.guardGather_next (guardStep_next h).2
    exact key (o := .next s) ⟨hn, h⟩
  | rdk | rdw | pck | fin => cases hb

theorem exec_rdk_next {s t : State} (h : exec .rdk s = .next t) :
    (s.n = 0#32 ∧ t = ((s.nextFree).setKeepCounts (Config.freeReadback s.freeIx)
      (s.n - Config.freeReadback s.freeIx)).advancePc) ∨
    (s.n ≠ 0#32 ∧ s.n.toNat - 1 < 2 * s.nmax ∧
      t = (s.setKeepCounts (s.front (s.n.toNat - 1)).a (s.n - (s.front (s.n.toNat - 1)).a)).advancePc) :=
  State.readback_next (k := fun v t => (t.setKeepCounts v (t.n - v)).advancePc) h

theorem exec_rdw_next {s t : State} (h : exec .rdw s = .next t) :
    (s.n = 0#32 ∧ t = ((s.nextFree).setWideCount (Config.freeReadback s.freeIx)).advancePc) ∨
    (s.n ≠ 0#32 ∧ s.n.toNat - 1 < 2 * s.nmax ∧ t = (s.setWideCount (s.front (s.n.toNat - 1)).a).advancePc) :=
  State.readback_next (k := fun v t => (t.setWideCount v).advancePc) h

theorem exec_pck_next {s t : State} (h : exec .pck s = .next t) :
    s.n.toNat ≤ s.nmax ∧ s.gatherOk s.lanes = true ∧ t = (s.fillOut s.packByte).advancePc := by
  obtain ⟨hn, hg, h⟩ := State.guardGather_next h
  injection h with h
  exact ⟨hn, hg, h.symm⟩

theorem exec_fin_next {s t : State} (h : exec .fin s = .next t) :
    t = ((s.setMbytes (s.keepcnt + s.widecnt)).finishFlags).advancePc := by
  injection h with h
  exact h.symm

/-- No pass reads or writes the schedule or the answers: with others in their place it does the same. -/
theorem exec_withPort {i : Instr} {s t : State} (q : List Event) (r : List Word) (h : exec i s = .next t) :
    exec i { s with inbox := q, answers := r } = .next { t with inbox := q, answers := r } := by
  have hl : State.lanesExist { s with inbox := q, answers := r } = s.lanesExist := rfl
  have hg : ∀ b, State.gatherOk { s with inbox := q, answers := r } b = s.gatherOk b := fun _ => rfl
  have hn : State.lanes { s with inbox := q, answers := r } = s.lanes := rfl
  cases i <;>
    simp only [exec, execRli, execRls, execSgk, execScn, execRdk, execCmp, execSgw, execRdw, execExp, execPck, execFin,
      guardStep, State.guardGather, State.guardLanes, State.readback, hl, hg, hn] at h ⊢ <;>
    (try split_ifs at h ⊢) <;> (injection h with h; subst h; rfl)

end Sys2Proof.Machine
end

