-- ==== Sys2Proof/Laws/PerInstr.lean ====
section
/-! SUPPORT. A law of every operation as syntax: its encoding agrees with its row of the opcode table. -/

namespace Sys2Proof.Laws.TableRow

/-- The row's `mask` in the opcode table. -/
def mask : Instr → PassWord
  | .rli | .sgk | .rdk | .sgw | .rdw | .pck | .fin => 0xFFFF#16
  | .rls _ | .scn _ | .cmp _ | .exp _ => 0xFFE0#16

/-- The row's `match` in the opcode table. -/
def value : Instr → PassWord
  | .rli => 0x1000#16
  | .rls _ => 0x2000#16
  | .sgk => 0x3000#16
  | .scn _ => 0x4000#16
  | .rdk => 0x5000#16
  | .cmp _ => 0x6000#16
  | .sgw => 0x7000#16
  | .rdw => 0x8000#16
  | .exp _ => 0x9000#16
  | .pck => 0xA000#16
  | .fin => 0xB000#16

/-- The encoded word carries the row's fixed bits. -/
def Statement (i : Instr) : Prop := encode i &&& mask i = value i

theorem rli : Statement .rli := by unfold Statement; decide
theorem rls (i : StepIx) : Statement (.rls i) := by unfold Statement; revert i; decide
theorem sgk : Statement .sgk := by unfold Statement; decide
theorem scn (i : StepIx) : Statement (.scn i) := by unfold Statement; revert i; decide
theorem rdk : Statement .rdk := by unfold Statement; decide
theorem cmp (i : StepIx) : Statement (.cmp i) := by unfold Statement; revert i; decide
theorem sgw : Statement .sgw := by unfold Statement; decide
theorem rdw : Statement .rdw := by unfold Statement; decide
theorem exp (i : StepIx) : Statement (.exp i) := by unfold Statement; revert i; decide
theorem pck : Statement .pck := by unfold Statement; decide
theorem fin : Statement .fin := by unfold Statement; decide

end Sys2Proof.Laws.TableRow
end

