-- ==== Sys2Proof/Laws/Step.lean ====
section
/-! SUPPORT. What a step can do, said once. -/

namespace Sys2Proof.Machine

/-- The sequencer's step, when it answers next: a word was fetched, it decoded, and its operation ran. -/
theorem State.seqStep_next {s t : State} (h : s.seqStep = .next t) :
    ∃ w i, s.fetchWord = some w ∧ decode w = .instr i ∧ exec i s.dropSupplied = .next t := by
  unfold State.seqStep at h
  split at h
  · cases h
  · split at h
    · cases h
    · exact ⟨_, _, ‹_›, ‹_›, h⟩

/-- The sequencer's turn, when it answers next. -/
theorem State.seqTurn_next {s t : State} (h : s.seqTurn = .next t) :
    (s.busy = false ∧ t = s) ∨
    (s.busy = true ∧ ∃ w i, s.fetchWord = some w ∧ decode w = .instr i ∧ exec i s.dropSupplied = .next t) := by
  unfold State.seqTurn at h
  split at h
  · exact .inr ⟨‹_›, State.seqStep_next h⟩
  · injection h with h
    exact .inl ⟨by simpa using ‹¬s.busy = true›, h.symm⟩

/-- A step, when it answers next: the sequencer's turn, or the schedule's next event. -/
theorem step_next {s t : State} (h : step s = .next t) :
    (s.inbox = [] ∧ s.seqTurn = .next t) ∨
    ∃ e rest, s.inbox = e :: rest ∧ State.event e { s with inbox := rest } = .next t := by
  unfold step State.transition at h
  split at h
  · exact .inl ⟨‹_›, h⟩
  · exact .inr ⟨_, _, ‹_›, h⟩

/-- What START can do. -/
theorem State.start_cases (s : State) :
    (s.busy = true ∧ s.start = s) ∨
    (s.busy = false ∧ s.cfgCheck = 0#4 ∧ s.start = s.clearResult.beginEncode) ∨
    (s.busy = false ∧ s.cfgCheck ≠ 0#4 ∧ s.start = s.clearResult.raiseCfgError s.cfgCheck) := by
  unfold State.start
  split
  · exact .inl ⟨‹_›, rfl⟩
  · have hb : s.busy = false := by simpa using ‹¬s.busy = true›
    split
    · exact .inr (.inl ⟨hb, ‹_›, rfl⟩)
    · exact .inr (.inr ⟨hb, ‹_›, rfl⟩)

/-- What ABORT can do. -/
theorem State.abort_cases (s : State) :
    (s.busy = true ∧ s.abort = s.abandon) ∨ (s.busy = false ∧ s.abort = s) := by
  unfold State.abort
  split
  · exact .inl ⟨‹_›, rfl⟩
  · exact .inr ⟨by simpa using ‹¬s.busy = true›, rfl⟩

/-- What a command word can do. -/
theorem State.command_cases (s : State) (w : Word) :
    s.command w = s.abort ∨ s.command w = s.start ∨ s.command w = s := by
  unfold State.command
  split
  · exact .inl rfl
  · split
    · exact .inr (.inl rfl)
    · exact .inr (.inr rfl)

/-- What a write on the host port can do: a command, an input register or a symbol cell written while idle, or nothing. -/
theorem State.hostWrite_cases (s : State) (sp : Space) (ix : Nat) (w : Word) :
    (sp = .reg ∧ ix = 0 ∧ s.hostWrite sp ix w = s.command w) ∨
    (s.busy = false ∧ sp = .reg ∧ ix = 2 ∧ s.hostWrite sp ix w = { s with n := w }) ∨
    (s.busy = false ∧ sp = .reg ∧ ix = 3 ∧ s.hostWrite sp ix w = { s with mrn := w }) ∨
    (s.busy = false ∧ sp = .reg ∧ ix = 4 ∧ s.hostWrite sp ix w = { s with mrw := w }) ∨
    (s.busy = false ∧ sp = .sym ∧ ix < s.nmax ∧ s.hostWrite sp ix w = s.writeSym ix (symCellOf w)) ∨
    s.hostWrite sp ix w = s := by
  cases sp with
  | out => simp [State.hostWrite]
  | sym =>
    cases hb : s.busy <;> by_cases hi : ix < s.nmax <;> simp [State.hostWrite, hb, hi]
  | reg =>
    match ix with
    | 0 => simp [State.hostWrite, State.writeReg]
    | 2 => cases hb : s.busy <;> simp [State.hostWrite, State.writeReg, hb]
    | 3 => cases hb : s.busy <;> simp [State.hostWrite, State.writeReg, hb]
    | 4 => cases hb : s.busy <;> simp [State.hostWrite, State.writeReg, hb]
    | 1 => simp [State.hostWrite, State.writeReg]
    | n + 5 => simp [State.hostWrite, State.writeReg]

/-- While busy, a write that is no ABORT does nothing. -/
theorem State.hostWrite_of_busy {s : State} (hb : s.busy = true) {sp : Space} {ix : Nat} {w : Word}
    (ha : sp = .reg → ix = 0 → w.getLsbD 1 = false) : s.hostWrite sp ix w = s := by
  obtain ⟨hsp, hix, h⟩ | ⟨h, _⟩ | ⟨h, _⟩ | ⟨h, _⟩ | ⟨h, _⟩ | h := s.hostWrite_cases sp ix w
  · rw [h, State.command, ha hsp hix, if_neg (by decide), State.start, hb, if_pos rfl, ite_self]
  iterate 4 (rw [hb] at h; cases h)
  exact h

end Sys2Proof.Machine
end

