-- ==== Sys2Proof/Tests/Slice0.lean ====
section
/-! SUPPORT. The model's own tests: expected results from spec/95_test_vectors.md (its row names stand in the comments) and
from the spec's encodings, and a witness for the hypotheses of each statement. -/

namespace Sys2Proof.Tests

open Sys2Proof.Machine

/-! ## Helpers -/

/-- A memory of the listed contents, from index 0. -/
def cells {α : Type} (l : List α) : Memory α := (List.range l.length).zip l

/-- A lane written as two integers. -/
def ln (c : Int × Int) : Lane := ⟨BitVec.ofInt 32 c.1, BitVec.ofInt 32 c.2⟩

/-- A busy state with `NMAX = 8`: the symbols, and the front bank (bank 0) from lane 0. -/
def mk (xs : List Nat) (front : List (Int × Int)) : State :=
  { State.resetOf 8 0 with
    busy := true, n := BitVec.ofNat 32 xs.length,
    sym := cells (xs.map fun x => ⟨BitVec.ofNat 4 x, false⟩), buf0 := cells (front.map ln) }

/-- The empty lane as two integers. -/
def E : Int × Int := (0, -1)

/-- The front lanes below `g` of a next state. -/
def frontOf (o : Host.Outcome State Fault Refusal) (g : Nat) : Option (List (Int × Int)) :=
  match o with
  | .next t => some ((List.range g).map fun p => ((t.front p).a.toInt, (t.front p).b.toInt))
  | _ => none

/-- The output bytes below `g` of a next state. -/
def outOf (o : Host.Outcome State Fault Refusal) (g : Nat) : Option (List Nat) :=
  match o with
  | .next t => some ((List.range g).map fun d => (t.outAt d).toNat)
  | _ => none

/-- `KEEPCNT`, `REPEATCNT`, `WIDECNT`, `MBYTES`, STATUS, `PC` of a next state. -/
def regsOf (o : Host.Outcome State Fault Refusal) : Option (List Nat) :=
  match o with
  | .next t => some [t.keepcnt.toNat, t.repeatcnt.toNat, t.widecnt.toNat, t.mbytes.toNat, t.statusWord.toNat, t.pc.toNat]
  | _ => none

/-- The outcome is a next state. -/
def runs (o : Host.Outcome State Fault Refusal) : Bool :=
  match o with
  | .next _ => true
  | _ => false

/-! ## Well-formedness: a stepped operation with step 31 is refused by the check -/

theorem test_wf_rls : (Instr.rls 31#5).wellFormed = false := by decide
theorem test_wf_scn : (Instr.scn 31#5).wellFormed = false := by decide
theorem test_wf_cmp : (Instr.cmp 31#5).wellFormed = false := by decide
theorem test_wf_exp : (Instr.exp 31#5).wellFormed = false := by decide

/-! ## Decoding: words written bit by bit from 30_encoding.md R71, R72 (V-DEC) -/

theorem test_decode_rli : decode 0b0001000000000000#16 = .instr .rli := by decide
theorem test_decode_rls : decode 0b0010000000011110#16 = .instr (.rls 30#5) := by decide
theorem test_decode_sgk : decode 0b0011000000000000#16 = .instr .sgk := by decide
theorem test_decode_scn : decode 0b0100000000000011#16 = .instr (.scn 3#5) := by decide
theorem test_decode_rdk : decode 0b0101000000000000#16 = .instr .rdk := by decide
theorem test_decode_cmp : decode 0b0110000000000001#16 = .instr (.cmp 1#5) := by decide
theorem test_decode_sgw : decode 0b0111000000000000#16 = .instr .sgw := by decide
theorem test_decode_rdw : decode 0b1000000000000000#16 = .instr .rdw := by decide
theorem test_decode_exp : decode 0b1001000000000010#16 = .instr (.exp 2#5) := by decide
theorem test_decode_pck : decode 0b1010000000000000#16 = .instr .pck := by decide
theorem test_decode_fin : decode 0b1011000000000000#16 = .instr .fin := by decide
theorem test_decode_illegal_op : decode 0x0000#16 = .illegal .reservedOp ∧ decode 0xC000#16 = .illegal .reservedOp ∧
    decode 0xFFFF#16 = .illegal .reservedOp := by decide
theorem test_decode_illegal_zero : decode 0x3001#16 = .illegal .nonzeroZero ∧ decode 0x2020#16 = .illegal .nonzeroZero ∧
    decode 0x9802#16 = .illegal .nonzeroZero ∧ decode 0xB010#16 = .illegal .nonzeroZero := by decide
theorem test_decode_illegal_step : decode 0x201F#16 = .illegal .stepThirtyOne := by decide
theorem test_decodeTableWord : decodeTableWord 16 0x9002 = some (.exp 2#5) ∧ decodeTableWord 16 0x901F = none := by decide

/-! ## The program (95_test_vectors.md P1, P2) -/

theorem test_prog_one : progOf (clog2 1) = [0x1000#16, 0x3000#16, 0x5000#16, 0x7000#16, 0x8000#16, 0xA000#16, 0xB000#16] := by
  decide
theorem test_prog_eight : progOf (clog2 8) =
    [0x1000#16, 0x2000#16, 0x2001#16, 0x2002#16, 0x3000#16, 0x4000#16, 0x4001#16, 0x4002#16, 0x5000#16, 0x6000#16,
      0x6001#16, 0x6002#16, 0x7000#16, 0x4000#16, 0x4001#16, 0x4002#16, 0x8000#16, 0x9002#16, 0x9001#16, 0x9000#16,
      0xA000#16, 0xB000#16] := by decide
theorem test_clog2 : [1, 2, 3, 4, 8, 9, 20].map clog2 = [0, 1, 2, 2, 3, 4, 5] := by decide

/-! ## The passes -/

/-- RLD-1. -/
theorem test_rli : frontOf (exec .rli (mk [1, 1, 1] [])) 6 = some [(1, 0), (1, 0), (1, 0), E, E, E] := by decide
/-- RLD-4: the guard `a = 2^i` refuses the merge. -/
theorem test_rls_guard : frontOf (exec (.rls 1#5) (mk [3, 7, 3] [(1, 0), (1, 0), (1, 0)])) 4 =
    some [(1, 0), (1, 0), (1, 0), E] := by decide
/-- P1, `RLS 1`: lanes 2 and 7 merge. -/
theorem test_rls_merge : frontOf (exec (.rls 1#5)
    (mk [3, 3, 3, 7, 7, 0, 0, 0] [(1, 0), (2, 0), (2, 0), (1, 0), (2, 0), (1, 0), (2, 0), (2, 0)])) 8 =
    some [(1, 0), (2, 0), (3, 0), (1, 0), (2, 0), (1, 0), (2, 0), (3, 0)] := by decide
/-- SG-1: `MRN = 3`. -/
theorem test_sgk_narrow : frontOf (exec .sgk
    { mk [5, 5, 5, 5, 5, 5, 5] [(1, 0), (2, 0), (3, 0), (4, 0), (5, 0), (6, 0), (7, 0)] with mrn := 3#32 }) 8 =
    some [(1, 0), E, E, (1, 3), E, E, (1, 6), E] := by decide
/-- SG-4: a wide symbol uses `MRW`. -/
theorem test_sgk_wide : frontOf (exec .sgk
    { mk [0, 0, 0, 0] [(1, 0), (2, 0), (3, 0), (4, 0)] with mrn := 2#32, mrw := 3#32 }) 4 =
    some [(1, 0), E, E, (1, 3)] := by decide
/-- SCN-1, first step: `b` is copied. -/
theorem test_scn : frontOf (exec (.scn 0#5) (mk [1, 1, 1, 1, 1] [(3, 9), (1, -1), (4, 8), (1, -1), (5, 7)])) 6 =
    some [(3, 9), (4, -1), (5, 8), (5, -1), (6, 7), E] := by decide
/-- SCN-4: an offset of `N` copies. -/
theorem test_scn_far : frontOf (exec (.scn 2#5) (mk [1, 1, 1, 1] [(1, 0), (2, 0), (3, 0), (4, 0)])) 4 =
    some [(1, 0), (2, 0), (3, 0), (4, 0)] := by decide
/-- RD-1. -/
theorem test_rdk : regsOf (exec .rdk (mk [3, 3, 3, 7, 7, 0, 0, 0]
    [(1, 0), (1, -1), (1, -1), (2, 3), (2, -1), (3, 5), (3, -1), (3, -1)])) = some [3, 5, 0, 0, 1, 1] := by decide
/-- RD-5. -/
theorem test_rdw : regsOf (exec .rdw (mk [0, 15, 0, 15] [(1, 0), (2, 1), (3, 2), (4, 3)])) = some [0, 0, 4, 0, 1, 1] := by
  decide
/-- CMP-1, `CMP 0`. -/
theorem test_cmp : frontOf (exec (.cmp 0#5) (mk [3, 3, 3, 7, 7, 0, 0, 0]
    [(1, 0), (1, -1), (1, -1), (2, 3), (2, -1), (3, 5), (3, -1), (3, -1)])) 8 =
    some [(1, 0), E, E, (2, 3), (3, 5), E, E, E] := by decide
/-- CMP-3, second pass: with `pull` and `keep` both true `pull` wins. -/
theorem test_cmp_pull_wins : frontOf (exec (.cmp 1#5) (mk [3, 3, 7, 7, 5] [(1, 0), E, (2, 2), E, (3, 4)])) 5 =
    some [(1, 0), E, (3, 4), E, E] := by decide
/-- SG-9: the flag comes from the slot's own source symbol. -/
theorem test_sgw_own : frontOf (exec .sgw (mk [3, 0, 0] [(1, 0), (2, 1), (0, -1), E, E, E])) 4 =
    some [(0, 0), (1, 1), E, E] := by decide
/-- EXP-1, `EXP 1`: contents move into the upper half. -/
theorem test_exp_upper : frontOf (exec (.exp 1#5) (mk [0, 15, 0, 15] [(1, 0), (2, 1), (3, 2), (4, 3), E, E, E, E])) 8 =
    some [(1, 0), (2, 1), E, E, (3, 2), (4, 3), E, E] := by decide
/-- EXP-2, `EXP 0`. -/
theorem test_exp_low : frontOf (exec (.exp 0#5) (mk [0, 15, 3, 3] [(1, 0), (2, 1), E, E, (2, 2), E, E, E])) 8 =
    some [(1, 0), E, (2, 1), E, (2, 2), E, E, E] := by decide
/-- PCK-1: a wide last chunk, `nextSrc(4) = N`. -/
theorem test_pck : outOf (exec .pck (mk [3, 3, 3, 7, 7, 0, 0, 0] ([(0, 0), (0, 3), (1, 5)] ++ List.replicate 13 E))) 6 =
    some [0x33, 0x72, 0x00, 0x03, 0x00, 0x00] := by decide
/-- PCK-2: the lane after a narrow slot is unused. -/
theorem test_pck_unused : outOf (exec .pck (mk [0, 0, 3, 3] [(0, 0), E, (0, 2), E, E, E, E, E])) 8 =
    some [0x00, 0x02, 0x32, 0, 0, 0, 0, 0] := by decide
/-- FIN-1. -/
theorem test_fin : regsOf (exec .fin { mk [1] [] with keepcnt := 3#32, widecnt := 1#32 }) = some [3, 0, 1, 4, 2, 1] := by
  decide

/-! ## The host port (V-HOST) -/

/-- Step 2: START with `N = 0` is `CfgError(1)`. -/
theorem test_start_n_zero : (State.resetOf 8 0).start.statusWord = 0x104#32 := by decide
/-- Step 3: `N = NMAX + 1`. -/
theorem test_start_n_range : ((State.resetOf 8 0).hostWrite .reg 2 9#32).start.statusWord = 0x204#32 := by decide
/-- Step 5: `MRN = 16`. -/
theorem test_start_run_param :
    (((State.resetOf 8 0).hostWrite .reg 2 2#32).hostWrite .reg 3 16#32).start.statusWord = 0x304#32 := by decide
/-- Steps 8, 9: a symbol above 15 sets its tag and poisons START. -/
theorem test_start_symbol_range : (let s := (((State.resetOf 8 0).hostWrite .reg 2 1#32).hostWrite .sym 0 0x13#32)
    (s.hostRead .sym 0, s.start.statusWord)) = (0x13#32, 0x404#32) := by decide
/-- Step 11: START accepted. -/
theorem test_start_accepted : (let s := ((((State.resetOf 8 0).hostWrite .reg 2 1#32).hostWrite .sym 0 3#32).command 1#32)
    (s.statusWord, s.hostRead .reg 9)) = (1#32, 0#32) := by decide
/-- Step 12: writes while busy are ignored. -/
theorem test_busy_ignored : (let s := mk [3, 5] []
    ((s.hostWrite .reg 2 8#32).n, (s.hostWrite .sym 0 9#32).symAt 0, (s.hostWrite .reg 0 1#32).pc)) = (2#32, 3#4, 0#8) := by
  decide
/-- Steps 17, 18: ABORT, alone and with START's bit set. -/
theorem test_abort : ((mk [3] []).command 2#32).statusWord = 0#32 ∧ (State.resetOf 8 0).command 3#32 = State.resetOf 8 0 := by
  decide
/-- Step 20: an index out of range. -/
theorem test_out_of_range : (State.resetOf 8 0).hostWrite .sym 8 1#32 = State.resetOf 8 0 ∧
    (State.resetOf 8 0).hostRead .sym 8 = 0#32 ∧ (State.resetOf 8 0).hostRead .out 16 = 0#32 := by decide

/-! ## The step right after reset runs a placed word -/

theorem test_first_step_runs : [0x1000, 0x2000, 0x3000, 0x4000, 0x5000, 0x6000, 0x7000, 0x8000, 0x9000, 0xA000, 0xB000].all
    (fun w => runs (step (State.reset.withFetchWord 16 w))) = true := by decide

/-! ## Witnesses: concrete states and operands that meet each statement's hypotheses, clause by clause -/

/-- `N = NMAX = 8`, the front lanes after P1's first scan. -/
def s8 : State := mk [3, 3, 3, 7, 7, 0, 0, 0] ([(1, 0), (1, -1), (1, -1), (2, 3), (2, -1), (3, 5), (3, -1), (3, -1)]
  ++ List.replicate 8 E)

/-- P4's dense slots before the expander: `N = 4`. -/
def s4 : State := mk [0, 15, 0, 15] [(1, 0), (2, 1), (3, 2), (4, 3), E, E, E, E]

/-- P1's dense slots before the packer. -/
def sp : State := mk [3, 3, 3, 7, 7, 0, 0, 0] ([(0, 0), (0, 3), (1, 5)] ++ List.replicate 13 E)

/-- `N = 1`, the smallest array. -/
def s1 : State := mk [5] [(0, 0), E]

/-- `s8`, idle. -/
def idle8 : State := { s8 with busy := false }

theorem witness_DecodeInvertsEncode : (Instr.rls 30#5).wellFormed = true ∧ (Instr.exp 0#5).wellFormed = true ∧
    Instr.fin.wellFormed = true := by decide
theorem witness_DecodedWordIsTheEncoding : decode 0x901E#16 = .instr (.exp 30#5) := by decide
theorem witness_OpcodeMapDecodes : (30#5 : StepIx) ≠ 31#5 := by decide
theorem witness_IllegalWordsAreRefused : (31 ≤ 31 ∧ 0x901E#16 ∈ progOf 31) ∧
    (let s := { s8 with supplied := [0x201F#16] }
    s.busy = true ∧ s.nextEvent = .pass ∧ s.supplied = 0x201F#16 :: [] ∧ decode 0x201F#16 = .illegal .stepThirtyOne) := by
  decide
theorem witness_Clog2IsTheLeastExponent : 1 ≤ 1 ∧ 1 ≤ 2 ^ 0 := by decide
/-- With `N = 8`, `l = 3`, the twelve clauses' `PC` values are 0, 1 to 3, 4, 5 to 7, 8, 9 to 11, 12, 13 to 15, 16, 17 to 19,
20, 21. -/
theorem witness_ProgramWordAtEachIndex : ∀ k, k < 22 → (let s := { s8 with pc := BitVec.ofNat 8 k }
    s.n ≠ 0#32 ∧ 3 = clog2 s.n.toNat ∧ s.pc.toNat = k) := by decide
theorem witness_StepRunsTheDecodedPass : decode 0x2002#16 = .instr (.rls 2#5) ∧
    (let s := { s8 with pc := 3#8 }
    s.busy = true ∧ s.supplied = [] ∧ s.n ≠ 0#32 ∧ (progOf (clog2 s.n.toNat))[s.pc.toNat]? = some 0x2002#16 ∧
      s.inbox = [] ∧ { s with inbox := [.pass] }.inbox = .pass :: []) ∧
    { s8 with supplied := [0x2002#16] }.supplied = 0x2002#16 :: [] := by decide
theorem witness_IdleSequencerDoesNothing : idle8.busy = false ∧ idle8.inbox = [] ∧
    { idle8 with inbox := [.pass] }.inbox = .pass :: [] := by decide
theorem witness_InitialisePassSetsRunLengthOne : s8.n.toNat ≤ s8.nmax ∧ 7 < s8.n.toNat ∧
    s8.n.toNat ≤ 15 ∧ 15 < 2 * s8.n.toNat := by decide
/-- Lane 1 merges; lane 0 has no left neighbour; lane 3's differs. -/
theorem witness_RunLengthStepMergesGrownRuns : (0#5 : StepIx) ≠ 31#5 ∧ s8.n.toNat ≤ s8.nmax ∧
    (0 + 2 ^ (0#5).toNat = 1 ∧ s8.symAt 0 = s8.symAt 1 ∧ (s8.front 1).a.toInt = 2 ^ (0#5).toNat) ∧
    (∀ l, l < 4 → l + 2 ^ (0#5).toNat = 3 → s8.symAt l ≠ s8.symAt 3 ∨ (s8.front 3).a.toInt ≠ 2 ^ (0#5).toNat) ∧
    (∀ l, l < 4 → ¬(l + 2 ^ (0#5).toNat = 0)) := by decide
/-- Lane 0 is narrow and a chunk-start, lane 3 is narrow and none, lane 5 is wide. -/
theorem witness_SegmentPassMarksChunkStarts : s8.n.toNat ≤ s8.nmax ∧
    (s8.symAt 0 ≠ 0#4 ∧ s8.symAt 0 ≠ 15#4 ∧ s8.mrn ≠ 0#32 ∧ ((s8.front 0).a - 1#32).toInt = 0 * (s8.mrn.toNat : Int)) ∧
    (s8.symAt 3 ≠ 0#4 ∧ s8.symAt 3 ≠ 15#4 ∧ ((s8.front 3).a - 1#32).toInt % (s8.mrn.toNat : Int) ≠ 0) ∧
    (s8.symAt 5 = 0#4 ∧ s8.mrw ≠ 0#32) := by decide
theorem witness_SegmentPassWithZeroMaximumStillRuns : (let s := { s8 with mrn := 0#32 }
    s.n.toNat ≤ s.nmax ∧ s.maxRun (s.symAt 0) = 0#32 ∧ s.maxRun (s.symAt 1) = 0#32 ∧ (s.front 1).a = (s.front 0).a) := by
  decide
theorem witness_ScanStepAddsLeftNeighbour : (0#5 : StepIx) ≠ 31#5 ∧ s8.n.toNat ≤ s8.nmax ∧ 6 + 2 ^ (0#5).toNat = 7 ∧
    0 < 2 ^ (0#5).toNat := by decide
theorem witness_ReadbackOfKeepTotal : (1 ≤ s8.n.toNat ∧ s8.n.toNat ≤ 2 * s8.nmax) ∧
    1 ≤ s1.n.toNat ∧ s1.n.toNat ≤ 2 * s1.nmax := by decide
theorem witness_ReadbackOfWideTotal : (1 ≤ s8.n.toNat ∧ s8.n.toNat ≤ 2 * s8.nmax) ∧
    1 ≤ s1.n.toNat ∧ s1.n.toNat ≤ 2 * s1.nmax := by decide
theorem witness_ReadbackWithoutLanesStillRuns : State.reset.n = 0#32 := by decide

/-- CMP's mover condition. -/
abbrev cmpMoves (s : State) (i : StepIx) (y : Nat) : Prop :=
  (s.front y).b ≠ -1#32 ∧ ((s.front y).b - (s.front y).a + 1#32).toNat / 2 ^ i.toNat % 2 = 1

/-- Lane 4 takes lane 5's content; lane 3 keeps; lane 5 moves away; lane 7 is empty and has no lane to its right. -/
theorem witness_CompactStepRoutesLeft : (0#5 : StepIx) ≠ 31#5 ∧ s8.n.toNat ≤ s8.nmax ∧
    (4 + 2 ^ (0#5).toNat < s8.n.toNat ∧ cmpMoves s8 0#5 (4 + 2 ^ (0#5).toNat)) ∧
    (¬cmpMoves s8 0#5 (3 + 2 ^ (0#5).toNat) ∧ (s8.front 3).b ≠ -1#32 ∧ ¬cmpMoves s8 0#5 3) ∧
    (¬cmpMoves s8 0#5 (5 + 2 ^ (0#5).toNat) ∧ cmpMoves s8 0#5 5) ∧
    (¬(7 + 2 ^ (0#5).toNat < s8.n.toNat) ∧ (s8.front 7).b = -1#32) := by decide
/-- Slot 0 is narrow, slot 2 is wide, slot 3 is empty. -/
theorem witness_WidthPassMarksOwnSymbol : sp.n.toNat ≤ sp.nmax ∧ sp.GathersInRange sp.n.toNat ∧
    ((sp.front 0).b ≠ -1#32 ∧ sp.symAt (sp.front 0).b.toNat = 3#4) ∧
    ((sp.front 2).b ≠ -1#32 ∧ sp.symAt (sp.front 2).b.toNat = 0#4) ∧ (sp.front 3).b = -1#32 := by
  unfold State.GathersInRange; decide

/-- EXP's class bit. -/
abbrev expWide (s : State) (y : Nat) : Word :=
  if s.symAt (s.front y).b.toNat = 0#4 ∨ s.symAt (s.front y).b.toNat = 15#4 then 1#32 else 0#32

/-- EXP's mover condition. -/
abbrev expMoves (s : State) (i : StepIx) (y : Nat) : Prop :=
  (s.front y).b ≠ -1#32 ∧ ((s.front y).a - expWide s y).toNat / 2 ^ i.toNat % 2 = 1

/-- Lane 5 takes lane 3's content; lane 1 keeps; lane 2 moves away; lane 7 is empty. -/
theorem witness_ExpandStepRoutesRight : (1#5 : StepIx) ≠ 31#5 ∧ s4.n.toNat ≤ s4.nmax ∧
    s4.GathersInRange (2 * s4.n.toNat) ∧ (3 + 2 ^ (1#5).toNat = 5 ∧ expMoves s4 1#5 3) ∧
    (1 < 2 ^ (1#5).toNat ∧ (s4.front 1).b ≠ -1#32 ∧ ¬expMoves s4 1#5 1) ∧
    (¬expMoves s4 1#5 0 ∧ expMoves s4 1#5 2) ∧
    (7 < 2 * s4.n.toNat ∧ (s4.front 5).b = -1#32 ∧ (s4.front 7).b = -1#32) := by
  unfold State.GathersInRange; decide
/-- Slot 1 is narrow, slot 2 wide and the last chunk, slot 3 the one after it, slot 15 the last. -/
theorem witness_PackPassWritesEveryByte : sp.n.toNat ≤ sp.nmax ∧ sp.GathersInRange (2 * sp.n.toNat) ∧
    ((sp.front 1).b ≠ -1#32 ∧ sp.symAt (sp.front 1).b.toNat = 7#4) ∧
    ((sp.front 2).b ≠ -1#32 ∧ sp.symAt (sp.front 2).b.toNat = 0#4) ∧
    ((sp.front 3).b = -1#32 ∧ 2 + 1 = 3) ∧
    (15 < 2 * sp.n.toNat ∧ (sp.front 15).b = -1#32 ∧ (sp.front 14).b = -1#32) ∧ 2 * sp.n.toNat ≤ 16 := by
  unfold State.GathersInRange; decide
theorem witness_PassOverAbsentLanesFaults : ({ s8 with n := 9#32 }.nmax < { s8 with n := 9#32 }.n.toNat ∧
    Instr.isBufferPass (.exp 30#5) = true ∧ Instr.wellFormed (.exp 30#5) = true) ∧
    2 * { s8 with n := 17#32 }.nmax < { s8 with n := 17#32 }.n.toNat := by decide
/-- A `b` of `N`, the first beyond the symbols, and a `b` of -2, the first below. -/
theorem witness_GatherOutsideTheSymbolsIsRefused : (let s := mk [3, 7] [(1, 2), E, E, E]
    s.n.toNat ≤ s.nmax ∧ ¬s.GathersInRange s.n.toNat ∧ ¬s.GathersInRange (2 * s.n.toNat)) ∧
    (let s := mk [3, 7] [(1, 0), E, E, (1, -2)]
    s.n.toNat ≤ s.nmax ∧ ¬s.GathersInRange (2 * s.n.toNat)) := by unfold State.GathersInRange; decide
theorem witness_BufferPassFrame : [Instr.rli, .rls 0#5, .sgk, .scn 1#5, .cmp 0#5, .sgw, .exp 1#5].all
    (fun i => i.isBufferPass && runs (exec i s4)) = true := by decide
theorem witness_OnlyTheNamedPassWrites : [Instr.rli, .rls 0#5, .sgk, .scn 1#5, .rdk, .cmp 0#5, .sgw, .rdw, .exp 1#5, .pck,
    .fin].all (fun i => runs (exec i s4)) = true := by decide
theorem witness_ResetStateIsCanonical : (1 ≤ 1 ∧ 1 ≤ 2 ^ 29) ∧ 1 ≤ 2 ^ 29 ∧ 2 ^ 29 ≤ 2 ^ 29 := by decide

/-! ### States that meet the invariants -/

/-- P1 just after its START: `N = NMAX = 8`. -/
def begun : State := mk [3, 3, 3, 7, 7, 0, 0, 0] []

/-- P1 before `EXP 0`, `PC = 19`. -/
def midway : State := { sp with pc := 19#8, buf0 := cells (([(0, 0), (0, 3), (1, 5)] ++ List.replicate 13 E).map ln) }

theorem begun_inv : begun.Inv := ⟨by decide, by decide, by decide, fun _ => by decide⟩
theorem begun_started : begun.Started := ⟨begun_inv, rfl, rfl, rfl, rfl, rfl⟩
theorem begun_canonical : begun.Canonical := ⟨begun_inv, rfl, fun _ => by decide, fun _ h => absurd h (by decide)⟩
theorem midway_canonical : midway.Canonical :=
  ⟨⟨by decide, by decide, by decide, fun _ => by decide⟩, rfl, fun _ => by decide, fun _ _ => by decide⟩

theorem witness_StepKeepsTheInvariant : begun.Inv ∧ runs (step begun) = true ∧ midway.Inv ∧ runs (step midway) = true :=
  ⟨begun_inv, by decide, midway_canonical.inv, by decide⟩
theorem witness_HardwareNeverStops : begun.Canonical ∧ midway.Canonical := ⟨begun_canonical, midway_canonical⟩

/-- A next state that satisfies a test. -/
def nextIs (o : Host.Outcome State Fault Refusal) (f : State → Bool) : Bool :=
  match o with
  | .next t => f t
  | _ => false

/-- `idle8` with one event to come. -/
def idleWith (e : Event) : State := { idle8 with inbox := [e] }

theorem witness_StatusFlagsChangeOnlyAsTabled :
    nextIs (step (idleWith (.hostWrite .reg 0 1#32))) (fun t => t.busy) = true ∧
    nextIs (step { begun with inbox := [.hostWrite .reg 0 2#32] }) (fun t => !t.busy) = true ∧
    nextIs (step { begun with inbox := [.reset] }) (fun t => !t.busy) = true ∧
    nextIs (step { begun with pc := 21#8 }) (fun t => !t.busy && t.done) = true ∧
    nextIs (step { idleWith (.hostWrite .reg 0 1#32) with done := true }) (fun t => !t.done) = true ∧
    nextIs (step { idleWith (.hostWrite .reg 0 1#32) with n := 0#32 }) (fun t => t.cfgerr && t.errcode == 1#4) = true ∧
    nextIs (step { idleWith .reset with cfgerr := true, errcode := 4#4 }) (fun t => !t.cfgerr) = true := by decide
theorem witness_ResetEventSetsTheResetValues : { begun with inbox := [.reset, .pass] }.inbox = .reset :: [.pass] := by decide
/-- Each space at its last cell and at the first beyond it; each register index and 11. -/
theorem witness_HostReadReturnsTheCell : (∀ ix, ix < 12 → (idleWith (.hostRead .reg ix)).inbox = .hostRead .reg ix :: []) ∧
    ((idleWith (.hostRead .sym 7)).inbox = .hostRead .sym 7 :: [] ∧ 7 < idle8.nmax ∧ idle8.nmax ≤ 8) ∧
    ((idleWith (.hostRead .out 15)).inbox = .hostRead .out 15 :: [] ∧ 15 < 2 * idle8.nmax ∧ 2 * idle8.nmax ≤ 16) := by decide
theorem witness_HostWriteStoresOnlyWhileIdle :
    (∀ ix, ix < 12 → (idleWith (.hostWrite .reg ix 5#32)).inbox = .hostWrite .reg ix 5#32 :: [] ∧
      (idleWith (.hostWrite .reg ix 5#32)).busy = false) ∧
    ({ begun with inbox := [.hostWrite .reg 1 5#32] }.busy = true) ∧ (7 < idle8.nmax ∧ idle8.nmax ≤ 8) ∧
    (idleWith (.hostWrite .out 0 5#32)).inbox = .hostWrite .out 0 5#32 :: [] := by decide
/-- One state for each code, at the edge of its cause, and one that passes. -/
theorem witness_ConfigurationCheckReportsLowestCause : { idle8 with n := 0#32 }.n.toNat = 0 ∧
    { idle8 with n := 9#32 }.nmax < { idle8 with n := 9#32 }.n.toNat ∧
    ¬({ idle8 with mrn := 16#32 }.mrn.toNat ≤ 15) ∧ ¬(1 ≤ { idle8 with mrn := 0#32 }.mrn.toNat) ∧
    ¬({ idle8 with mrw := 4096#32 }.mrw.toNat ≤ 4095) ∧
    (7 < idle8.n.toNat ∧ (idle8.writeSym 7 ⟨0#4, true⟩).oorAt 7 = true) ∧ idle8.ConfigLegal := by decide
theorem witness_StartRaisesOrBegins : (1#32 : Word).getLsbD 1 = false ∧ (1#32 : Word).getLsbD 0 = true ∧
    (0xFFFFFFFC#32 : Word).getLsbD 1 = false ∧ (0xFFFFFFFC#32 : Word).getLsbD 0 = false ∧ begun.busy = true ∧
    idle8.busy = false ∧ idle8.cfgCheck = 0#4 ∧ { idle8 with n := 0#32 }.cfgCheck ≠ 0#4 ∧
    (idleWith (.hostWrite .reg 0 1#32)).inbox = .hostWrite .reg 0 1#32 :: [] := by decide
theorem witness_AbortAbandonsTheEncode : (3#32 : Word).getLsbD 1 = true ∧ begun.busy = true ∧ idle8.busy = false ∧
    (idleWith (.hostWrite .reg 0 3#32)).inbox = .hostWrite .reg 0 3#32 :: [] := by decide
theorem witness_RunningEncodeIgnoresTheHost : [Event.hostWrite .reg 0 1#32, .hostWrite .reg 2 5#32, .hostWrite .sym 0 5#32,
    .hostRead .reg 1].all (fun e => (let s := { begun with inbox := [e] }
      s.busy && s.nextEvent.harmless && !s.nextEvent.isPass && runs (step s))) = true := by decide
theorem witness_AcceptedStartBeginsAnEncode : (let s := idleWith (.hostWrite .reg 0 1#32)
    s.Inv ∧ s.busy = false ∧ s.supplied = [] ∧ s.cfgCheck = 0#4 ∧ s.inbox = [.hostWrite .reg 0 1#32] ∧
      (1#32 : Word).getLsbD 1 = false ∧ (1#32 : Word).getLsbD 0 = true) :=
  ⟨⟨by decide, by decide, by decide, fun h => absurd h (by decide)⟩, by decide⟩
theorem witness_ScanStageGivesPrefixSums : (1 ≤ s8.n.toNat ∧ s8.n.toNat ≤ s8.nmax ∧ s8.nmax ≤ 2 ^ 29) ∧
    1 ≤ s1.n.toNat ∧ s1.n.toNat ≤ s1.nmax := by decide
theorem witness_ScanOfZeroFlagsIsZero : (let s := mk [3, 7, 3] [(0, 0), (0, 1), (0, 2), E, E, E]
    1 ≤ s.n.toNat ∧ s.n.toNat ≤ s.nmax ∧ s.nmax ≤ 2 ^ 29 ∧ ∀ p, p < s.n.toNat → (s.front p).a = 0#32) := by decide
theorem witness_DetectorStageGivesRunOffsets : 1 ≤ s8.n.toNat ∧ s8.n.toNat ≤ s8.nmax ∧ s8.nmax ≤ 2 ^ 29 ∧
    7 < s8.n.toNat ∧ s8.InRunFrom 5 7 :=
  ⟨by decide, by decide, by decide, by decide, by decide,
    fun q h₁ h₂ => by interval_cases q <;> decide, by decide⟩

/-- The detector's offsets of two runs of length two, `MRN = 2`. -/
def offsets : State := { mk [3, 3, 7, 7] [(1, 0), (2, 0), (1, 0), (2, 0)] with mrn := 2#32 }

theorem witness_SegmenterMarksEveryMaximumRun : 1 ≤ offsets.n.toNat ∧ offsets.n.toNat ≤ offsets.nmax ∧
    offsets.nmax ≤ 2 ^ 29 ∧ offsets.mrn ≠ 0#32 ∧ offsets.mrw ≠ 0#32 ∧
    (∀ p st, p < offsets.n.toNat → offsets.InRunFrom st p → (offsets.front p).a = BitVec.ofNat 32 (p - st + 1)) := by
  refine ⟨by decide, by decide, by decide, by decide, by decide, fun p st hp h => ?_⟩
  obtain ⟨h₁, h₂, h₃⟩ := h
  have key : ∀ p, p < 4 → ∀ st, st < 4 → (st ≤ p ∧ offsets.symAt st = offsets.symAt p ∧
      (st = 0 ∨ offsets.symAt (st - 1) ≠ offsets.symAt st)) → (offsets.front p).a = BitVec.ofNat 32 (p - st + 1) := by
    decide
  exact key p hp st (Nat.lt_of_le_of_lt h₁ hp) ⟨h₁, h₂ st (Nat.le_refl _) h₁, h₃⟩

/-- P1's kept lanes: 0, 3 and 5. -/
def kept8 (p : Nat) : Bool := p == 0 || p == 3 || p == 5

theorem witness_CompactionStageGivesDenseRanks :
    (let scan := fun p => ((List.range (p + 1)).filter kept8).length
    (1 ≤ s8.n.toNat ∧ s8.n.toNat ≤ s8.nmax ∧ s8.nmax ≤ 2 ^ 29) ∧
    (∀ p, p < s8.n.toNat →
      s8.front p = ⟨BitVec.ofNat 32 (scan p), if kept8 p then BitVec.ofNat 32 p else -1#32⟩) ∧
    (∀ p, p < 16 → s8.n.toNat ≤ p → s8.front p = ⟨0#32, -1#32⟩) ∧ kept8 0 = true) := by decide

/-- P4's four wide slots, in source order. -/
theorem witness_ExpansionStageOpensWideSlots :
    (let wide := fun j => isWide (s4.symAt j)
    let before := fun j => ((List.range j).filter wide).length
    (1 ≤ s4.n.toNat ∧ s4.n.toNat ≤ s4.nmax ∧ s4.nmax ≤ 2 ^ 29 ∧ 4 ≤ s4.n.toNat) ∧
    (∀ j, j < 4 → s4.front j = ⟨BitVec.ofNat 32 (before (j + 1)), BitVec.ofNat 32 j⟩) ∧
    (∀ x, x < 8 → 4 ≤ x → (s4.front x).b = -1#32)) := by decide
theorem witness_PackerReadsNoRunLength : (let s' := mk [0, 15, 0, 15] [(9, 0), (8, 1), (7, 2), (6, 3), E, E, E, E]
    s'.n = s4.n ∧ s'.sym = s4.sym ∧ (∀ p, p < 2 * s4.n.toNat → (s'.front p).b = (s4.front p).b) ∧
    runs (exec .pck s4) = true ∧ runs (exec .pck s') = true) := by decide
theorem witness_EncodeMeetsTheReference : begun.Started := begun_started
theorem witness_EncodedStreamDecodesToTheSymbols : begun.Started := begun_started
theorem witness_EncodeFinishesUnderHarmlessTransactions :
    (let s := { begun with inbox := [.pass, .hostRead .reg 1, .hostWrite .reg 2 0#32] }
    s.Canonical ∧ s.busy = true ∧ (∀ e ∈ s.inbox, e.harmless = true) ∧
      (s.inbox.filter Event.isPass).length < 5 * clog2 s.n.toNat + 7 - s.pc.toNat) :=
  ⟨⟨⟨by decide, by decide, by decide, fun _ => by decide⟩, rfl, fun _ => by decide, fun _ h => absurd h (by decide)⟩,
    by decide⟩

/-- The same encode begun over other bank contents and counts. -/
def begunAgain : State := { s8 with keepcnt := 9#32, out := [(0, 0x55#8)] }

theorem witness_EarlierContentsDoNotMatter : begun.Started ∧ begunAgain.Started ∧ begunAgain.n = begun.n ∧
    begunAgain.mrn = begun.mrn ∧ begunAgain.mrw = begun.mrw ∧ begunAgain.symbols = begun.symbols :=
  ⟨begun_started, ⟨⟨by decide, by decide, by decide, fun _ => by decide⟩, rfl, rfl, rfl, rfl, rfl⟩, by decide⟩
/-- `2^3 = N = 8`; and `2^1 = N = 2` with a valid lane whose displacement, 2, has bit 1 set. -/
theorem witness_StepBeyondTheArrayMovesNothing : (3#5 : StepIx) ≠ 31#5 ∧ s8.n.toNat ≤ s8.nmax ∧
    s8.n.toNat ≤ 2 ^ (3#5).toNat ∧ (s8.front 7).b = -1#32 ∧ (8 ≤ 15 ∧ 15 < 2 * s8.n.toNat) ∧
    ((s8.front 0).b ≠ -1#32 ∧ ((s8.front 0).b - (s8.front 0).a + 1#32).toNat / 2 ^ (3#5).toNat % 2 = 0) ∧
    (let s := mk [3, 7] [(1, 0), (1, 2), E, E]
    s.n.toNat ≤ s.nmax ∧ s.n.toNat ≤ 2 ^ (1#5).toNat ∧ (s.front 1).b ≠ -1#32 ∧
      ((s.front 1).b - (s.front 1).a + 1#32).toNat / 2 ^ (1#5).toNat % 2 = 1) := by decide

theorem witness_LaneOrderIsRowMajor : 1 ≤ 3 ∧ 1 ≤ 2 ∧ (1 < 2 ∧ 2 < 3) ∧ 5 < 3 * 2 := by decide

end Sys2Proof.Tests
end

section
/-! PROOFS. The scope family: `clog2` (00_scope.md R7), the frame of a pass (R14), and SGK where the modulus is undefined
(R16). -/

namespace Sys2Proof.Machine

/-! ## The ceiling logarithm -/

/-- The search stops at an exponent that covers `n`, if its fuel reaches one. -/
theorem le_two_pow_clog2From {n fuel k : Nat} (h : n ≤ 2 ^ (k + fuel)) : n ≤ 2 ^ clog2From n fuel k := by
  induction fuel generalizing k with
  | zero => exact h
  | succ fuel ih =>
    unfold clog2From
    split
    · assumption
    · exact ih (by rwa [Nat.succ_add_eq_add_succ])

/-- The search passes over no exponent that covers `n`. -/
theorem clog2From_le {n fuel k j : Nat} (hkj : k ≤ j) (hj : n ≤ 2 ^ j) : clog2From n fuel k ≤ j := by
  induction fuel generalizing k with
  | zero => exact hkj
  | succ fuel ih =>
    unfold clog2From
    split
    · exact hkj
    · next hk =>
      have hne : k ≠ j := fun h => hk (h ▸ hj)
      exact ih (Nat.lt_of_le_of_ne hkj hne)

theorem le_two_pow_clog2 (n : Nat) : n ≤ 2 ^ clog2 n :=
  le_two_pow_clog2From (by rw [Nat.zero_add]; exact Nat.lt_two_pow_self.le)

theorem clog2_le {n k : Nat} (h : n ≤ 2 ^ k) : clog2 n ≤ k := clog2From_le (Nat.zero_le k) h

/-- Settles O5: the search reaches a covering exponent within its fuel and passes over none. -/
theorem clog2IsTheLeastExponent : Obligations.Clog2IsTheLeastExponent :=
  fun n _ => ⟨le_two_pow_clog2 n, fun _ => clog2_le⟩

/-! ## The frame of a buffer pass -/

/-- Whatever lanes a buffer pass computes, it leaves the frame of R14. -/
theorem State.bufferFrame_bufferNext (s : State) (f : Nat → Lane) : BufferFrame s (s.bufferNext f) where
  pc      := rfl
  cur     := rfl
  read    := s.back_bufferNext f
  above p hp := by rw [s.front_bufferNext, if_neg (Nat.not_lt.2 hp)]
  outside := ⟨fun _ => rfl, ⟨rfl, rfl, rfl, rfl⟩, rfl, rfl, rfl, rfl⟩
  flags   := ⟨rfl, rfl, rfl, rfl⟩
  counts  := ⟨rfl, rfl, rfl, rfl⟩
  out _   := rfl
  free    := rfl

/-- Settles O25: a buffer pass that answers next leaves `bufferNext` of its lane function. -/
theorem bufferPassFrame : Obligations.BufferPassFrame := by
  intro i s t hb h
  obtain ⟨-, rfl⟩ := exec_bufferPass_next hb h
  exact s.bufferFrame_bufferNext _

/-- In the frame of a buffer pass no lane of either bank from `2N` up differs: a bank is the one read or the one written. -/
theorem BufferFrame.laneAt_of_lanes_le {s t : State} (h : BufferFrame s t) (k : BankId) {p : Nat} (hp : s.lanes ≤ p) :
    t.laneAt k p = s.laneAt k p := by
  obtain rfl | rfl := k.eq_or_eq_other s.cur
  · have hread := h.read p
    rwa [State.back, h.cur, BankId.other_other] at hread
  · have habove := h.above p hp
    rwa [State.front, h.cur] at habove

/-! ## The frames of the other four passes -/

/-- Whatever scalars, flags and output bytes a pass leaves, it has the frame of a pass that writes no lane if `PC` is one
more and no other field differs. -/
theorem State.scalarFrame_of_scalars (s : State) (out : Memory Byte) (keep rep wide mbytes : Word) (busy done : Bool)
    (free : Nat) :
    ScalarFrame s { s with
      out := out, keepcnt := keep, repeatcnt := rep, widecnt := wide, mbytes := mbytes, pc := s.pc + 1#8, busy := busy,
      done := done, freeIx := free } where
  pc      := rfl
  banks   := ⟨rfl, fun _ _ => rfl⟩
  outside := ⟨fun _ => rfl, ⟨rfl, rfl, rfl, rfl⟩, rfl, rfl, rfl, rfl⟩

/-- RDK writes `KEEPCNT`, `REPEATCNT` and `PC` (and moves the free counter on if `N = 0`). -/
theorem exec_rdk_frame {s t : State} (h : exec .rdk s = .next t) :
    ScalarFrame s t ∧ SameFlags s t ∧ SameOut s t ∧ t.widecnt = s.widecnt ∧ t.mbytes = s.mbytes := by
  obtain ⟨-, rfl⟩ | ⟨-, -, rfl⟩ := exec_rdk_next h <;>
    exact ⟨s.scalarFrame_of_scalars .., ⟨rfl, rfl, rfl, rfl⟩, fun _ => rfl, rfl, rfl⟩

/-- RDW writes `WIDECNT` and `PC` (and moves the free counter on if `N = 0`). -/
theorem exec_rdw_frame {s t : State} (h : exec .rdw s = .next t) :
    ScalarFrame s t ∧ SameFlags s t ∧ SameOut s t ∧ t.keepcnt = s.keepcnt ∧ t.repeatcnt = s.repeatcnt ∧
      t.mbytes = s.mbytes := by
  obtain ⟨-, rfl⟩ | ⟨-, -, rfl⟩ := exec_rdw_next h <;>
    exact ⟨s.scalarFrame_of_scalars .., ⟨rfl, rfl, rfl, rfl⟩, fun _ => rfl, rfl, rfl, rfl⟩

/-- PCK writes the output bytes below `2N` and `PC`. -/
theorem exec_pck_frame {s t : State} (h : exec .pck s = .next t) :
    ScalarFrame s t ∧ SameFlags s t ∧ SameCounts s t ∧ t.freeIx = s.freeIx ∧
      ∀ d, s.lanes ≤ d → t.outAt d = s.outAt d := by
  obtain ⟨-, -, rfl⟩ := exec_pck_next h
  refine ⟨s.scalarFrame_of_scalars .., ⟨rfl, rfl, rfl, rfl⟩, ⟨rfl, rfl, rfl, rfl⟩, rfl, fun d hd => ?_⟩
  exact (s.outAt_fillOut _ d).trans (if_neg (Nat.not_lt.2 hd))

/-- FIN writes `MBYTES`, `BUSY`, `DONE` and `PC`. -/
theorem exec_fin_frame {s t : State} (h : exec .fin s = .next t) :
    ScalarFrame s t ∧ SameOut s t ∧ t.keepcnt = s.keepcnt ∧ t.repeatcnt = s.repeatcnt ∧ t.widecnt = s.widecnt := by
  obtain rfl := exec_fin_next h
  exact ⟨s.scalarFrame_of_scalars .., fun _ => rfl, rfl, rfl, rfl⟩

/-- Settles O26: each pass by its frame, the seven buffer passes by one. -/
theorem onlyTheNamedPassWrites : Obligations.OnlyTheNamedPassWrites := by
  intro i s t h
  cases hb : i.isBufferPass with
  | true =>
    have hf := bufferPassFrame i s t hb h
    obtain ⟨hkeep, hrep, hwide, hmbytes⟩ := hf.counts
    exact ⟨hf.outside, hf.pc, fun _ => ⟨hf.flags, hmbytes⟩, fun _ => ⟨hkeep, hrep⟩, fun _ => hwide, fun _ => hf.out,
      fun d _ => hf.out d, nofun, fun k _ hp => hf.laneAt_of_lanes_le k hp⟩
  | false =>
    cases i with
    | rdk =>
      obtain ⟨hf, hflags, hout, hwide, hmbytes⟩ := exec_rdk_frame h
      exact ⟨hf.outside, hf.pc, fun _ => ⟨hflags, hmbytes⟩, fun hne => absurd rfl hne, fun _ => hwide, fun _ => hout,
        fun d _ => hout d, fun _ => hf.banks, fun k p _ => hf.banks.2 k p⟩
    | rdw =>
      obtain ⟨hf, hflags, hout, hkeep, hrep, hmbytes⟩ := exec_rdw_frame h
      exact ⟨hf.outside, hf.pc, fun _ => ⟨hflags, hmbytes⟩, fun _ => ⟨hkeep, hrep⟩, fun hne => absurd rfl hne,
        fun _ => hout, fun d _ => hout d, fun _ => hf.banks, fun k p _ => hf.banks.2 k p⟩
    | pck =>
      obtain ⟨hf, hflags, ⟨hkeep, hrep, hwide, hmbytes⟩, -, habove⟩ := exec_pck_frame h
      exact ⟨hf.outside, hf.pc, fun _ => ⟨hflags, hmbytes⟩, fun _ => ⟨hkeep, hrep⟩, fun _ => hwide,
        fun hne => absurd rfl hne, habove, fun _ => hf.banks, fun k p _ => hf.banks.2 k p⟩
    | fin =>
      obtain ⟨hf, hout, hkeep, hrep, hwide⟩ := exec_fin_frame h
      exact ⟨hf.outside, hf.pc, fun hne => absurd rfl hne, fun _ => ⟨hkeep, hrep⟩, fun _ => hwide, fun _ => hout,
        fun d _ => hout d, fun _ => hf.banks, fun k p _ => hf.banks.2 k p⟩
    | rli | rls | sgk | scn | cmp | sgw | exp => cases hb

/-! ## SGK and the undefined modulus -/

/-- A lane below `N` after a source-domain pass holds what the pass computed for it. -/
theorem State.front_bufferNext_sourceLane (s : State) (f : Nat → Lane) {p : Nat} (hp : p < s.n.toNat) :
    (s.bufferNext (s.sourceLane f)).front p = f p := by
  have hlanes : p < s.lanes := by unfold State.lanes; omega
  rw [s.front_bufferNext, if_pos hlanes, State.sourceLane, if_pos hp]

theorem exec_sgk_of_le {s : State} (h : s.n.toNat ≤ s.nmax) :
    exec .sgk s = .next (s.bufferNext (s.sourceLane s.sgkLane)) := s.guardLanes_of_le h _

theorem State.sgkLane_eq_start_or_empty (s : State) (p : Nat) :
    s.sgkLane p = ⟨1#32, BitVec.ofNat 32 p⟩ ∨ s.sgkLane p = Lane.empty := by
  unfold State.sgkLane
  split
  · exact .inl rfl
  · exact .inr rfl

/-- Whether SGK marks a lane depends on its run length and its maximum run only, whatever the remainder by 0 is. -/
theorem State.sgkLane_a_congr (s : State) {p q : Nat} (ha : (s.front q).a = (s.front p).a)
    (hm : s.maxRun (s.symAt q) = s.maxRun (s.symAt p)) : (s.sgkLane q).a = (s.sgkLane p).a := by
  unfold State.sgkLane
  rw [ha, hm]
  split <;> rfl

/-- Settles O12: the remainder by 0 is a function of the run length, so lanes with equal ones fare alike. -/
theorem segmentPassWithZeroMaximumStillRuns : Obligations.SegmentPassWithZeroMaximumStillRuns := by
  intro s hn
  refine ⟨_, exec_sgk_of_le hn, s.bufferFrame_bufferNext _, fun p hp hp0 => ⟨?_, fun q hq hq0 ha => ?_⟩⟩
  · rw [s.front_bufferNext_sourceLane _ hp]
    exact s.sgkLane_eq_start_or_empty p
  · rw [s.front_bufferNext_sourceLane _ hp, s.front_bufferNext_sourceLane _ hq]
    exact s.sgkLane_a_congr ha (hq0.trans hp0.symm)

end Sys2Proof.Machine
end

section
/-! PROOFS. The state family: the reset state and the reset event (10_state.md R38), passes over lanes that do not exist
(R21 to R23), the STATUS flags (R33), and the invariant every step keeps. -/

namespace Sys2Proof.Machine

/-! ## Reset -/

/-- The values of R38 meet the invariant: idle, no error, and memories that list nothing. -/
theorem State.resetOf_canonical {nmax draw : Nat} (h₁ : 1 ≤ nmax) (h₂ : nmax ≤ 2 ^ 29) :
    (State.resetOf nmax draw).Canonical where
  inv     := {
    inst   := ⟨h₁, h₂⟩
    mem    := ⟨⟨rfl, rfl⟩, ⟨rfl, rfl⟩, ⟨rfl, rfl⟩, rfl, rfl⟩
    flags  := ⟨nofun, nofun, nofun, ⟨fun _ => rfl, fun _ => rfl⟩, Nat.zero_le 4⟩
    config := nofun }
  noWords := rfl
  pcIn    := nofun
  gathers := nofun

/-- Settles O27: `State.reset` is the reset state of the largest `NMAX`. -/
theorem resetStateIsCanonical : Obligations.ResetStateIsCanonical :=
  ⟨State.resetOf_canonical (by decide) (by decide), fun _ _ => State.resetOf_canonical⟩

/-- A step is the event that comes next, taken with the rest of the schedule. -/
theorem step_eq_event (s : State) : step s = State.event s.nextEvent { s with inbox := s.inbox.tail } := by
  cases h : s.inbox with
  | nil =>
    have hs : { s with inbox := [] } = s := by rw [← h]
    rw [List.tail_nil, hs, step, State.transition, State.nextEvent, h]
    rfl
  | cons e rest =>
    rw [step, State.transition, State.nextEvent, h]
    rfl

/-- Settles O31: the step is the reset event, and each field of `State.resetEvent` is the one stated. -/
theorem resetEventSetsTheResetValues : Obligations.ResetEventSetsTheResetValues := by
  intro s rest h
  refine ⟨State.resetEvent { s with inbox := rest }, ?_, ?_⟩
  · rw [step_eq_event, State.nextEvent, h]
    rfl
  · repeat' apply And.intro
    all_goals rfl

/-! ## Passes over lanes that do not exist -/

theorem guardStep_of_legalStep {i : StepIx} (h : legalStep i = true) (k : Host.Outcome State Fault Refusal) :
    guardStep i k = k := if_pos h

/-- With `N > NMAX` every buffer pass and PCK stop at their guard, before anything they compute. -/
theorem exec_of_nmax_lt {s : State} {i : Instr} (hn : s.nmax < s.n.toNat) (hi : i.wellFormed = true)
    (h : i.isBufferPass = true ∨ i = .pck) : exec i s = .fault .laneAbsent := by
  cases i with
  | rli | sgk | sgw | pck => exact s.guardLanes_of_lt hn _
  | rls k | scn k | cmp k | exp k => exact (guardStep_of_legalStep hi _).trans (s.guardLanes_of_lt hn _)
  | rdk | rdw | fin => simp [Instr.isBufferPass] at h

/-- A readback of a lane `N - 1` beyond both depths of a bank stops. -/
theorem State.readback_of_lt {s : State} (h : 2 * s.nmax < s.n.toNat) (k : Word → State → State) :
    s.readback k = .fault .laneAbsent := by
  have hn : s.n ≠ 0#32 := by rintro hn; simp [hn] at h
  rw [State.readback, if_neg hn, if_neg (by omega)]

/-- Settles O23: buffer passes and PCK by the guard they share, RDK and RDW by the readback they share. -/
theorem passOverAbsentLanesFaults : Obligations.PassOverAbsentLanesFaults := by
  refine fun s i hn hi => ⟨exec_of_nmax_lt hn hi, ?_⟩
  rintro (rfl | rfl) h
  · exact State.readback_of_lt h fun v t => (t.setKeepCounts v (t.n - v)).advancePc
  · exact State.readback_of_lt h fun v t => (t.setWideCount v).advancePc

/-! ## The STATUS flags -/

/-- What one step from `s` can do to the flags: an arm for each event that sets or clears one (10_state.md R33). -/
inductive FlagStep (s t : State) : Prop
  | kept (same : SameFlags s t)
  | finished (runs : s.NextRuns .fin)
      (flags : t.busy = false ∧ t.done = true ∧ t.cfgerr = s.cfgerr ∧ t.errcode = s.errcode)
  | aborted (abort : s.nextEvent.isAbort = true)
      (flags : t.busy = false ∧ t.done = s.done ∧ t.cfgerr = s.cfgerr ∧ t.errcode = s.errcode)
  | begun (start : s.nextEvent.isStart = true) (idle : s.busy = false) (passes : s.cfgCheck = 0#4)
      (flags : t.busy = true ∧ t.done = false ∧ t.cfgerr = false ∧ t.errcode = 0#4)
  | rejected (start : s.nextEvent.isStart = true) (idle : s.busy = false) (fails : s.cfgCheck ≠ 0#4)
      (flags : t.busy = false ∧ t.done = false ∧ t.cfgerr = true ∧ t.errcode = s.cfgCheck)
  | reset (next : s.nextEvent = .reset)
      (flags : t.busy = false ∧ t.done = false ∧ t.cfgerr = false ∧ t.errcode = 0#4)

/-- Of the passes only FIN touches a flag. -/
theorem exec_flags {i : Instr} {s t : State} (h : exec i s = .next t) :
    SameFlags s t ∨ i = .fin ∧ t.busy = false ∧ t.done = true ∧ t.cfgerr = s.cfgerr ∧ t.errcode = s.errcode := by
  by_cases hi : i = .fin
  · subst hi
    obtain rfl := exec_fin_next h
    exact .inr ⟨rfl, rfl, rfl, rfl, rfl⟩
  · obtain ⟨-, -, hflags, -⟩ := onlyTheNamedPassWrites i s t h
    exact .inl (hflags hi).1

/-- A write to CTRL: ABORT, else START, else nothing. -/
theorem FlagStep.of_command {s : State} {w : Word} (he : s.nextEvent = .hostWrite .reg 0 w) (q : List Event) :
    FlagStep s (State.command { s with inbox := q } w) := by
  unfold State.command
  split
  · next hw =>
    have habort : s.nextEvent.isAbort = true := by rw [he]; exact hw
    obtain ⟨-, h⟩ | ⟨-, h⟩ := State.abort_cases { s with inbox := q } <;> rw [h]
    · exact .aborted habort ⟨rfl, rfl, rfl, rfl⟩
    · exact .kept ⟨rfl, rfl, rfl, rfl⟩
  · split
    · next hw hw' =>
      have hstart : s.nextEvent.isStart = true := by
        rw [he, Event.isStart, Bool.eq_false_of_not_eq_true hw, hw']
        rfl
      obtain ⟨-, h⟩ | ⟨hb, hc, h⟩ | ⟨hb, hc, h⟩ := State.start_cases { s with inbox := q } <;> rw [h]
      · exact .kept ⟨rfl, rfl, rfl, rfl⟩
      · exact .begun hstart hb hc ⟨rfl, rfl, rfl, rfl⟩
      · exact .rejected hstart hb hc ⟨hb, rfl, rfl, rfl⟩
    · exact .kept ⟨rfl, rfl, rfl, rfl⟩

/-- Every step is one of the arms of `FlagStep`. -/
theorem step_flags {s t : State} (h : step s = .next t) : FlagStep s t := by
  rw [step_eq_event] at h
  cases he : s.nextEvent with
  | pass =>
    rw [he] at h
    obtain ⟨-, rfl⟩ | ⟨hb, w, i, hw, hi, hx⟩ := State.seqTurn_next h
    · exact .kept ⟨rfl, rfl, rfl, rfl⟩
    · obtain hsame | ⟨rfl, hflags⟩ := exec_flags hx
      · exact .kept hsame
      · exact .finished ⟨he, hb, w, hw, hi⟩ hflags
  | hostWrite sp ix w =>
    rw [he] at h
    injection h with h
    obtain ⟨rfl, rfl, h'⟩ | ⟨-, -, -, h'⟩ | ⟨-, -, -, h'⟩ | ⟨-, -, -, h'⟩ | ⟨-, -, -, h'⟩ | h' :=
      State.hostWrite_cases { s with inbox := s.inbox.tail } sp ix w <;> rw [← h, h']
    · exact .of_command he _
    all_goals exact .kept ⟨rfl, rfl, rfl, rfl⟩
  | hostRead sp ix =>
    rw [he] at h
    injection h with h
    subst h
    exact .kept ⟨rfl, rfl, rfl, rfl⟩
  | reset =>
    rw [he] at h
    injection h with h
    subst h
    exact .reset he ⟨rfl, rfl, rfl, rfl⟩

/-- Settles O30: in each arm of `FlagStep`, the flags it changes are those its event is tabled for. -/
theorem statusFlagsChangeOnlyAsTabled : Obligations.StatusFlagsChangeOnlyAsTabled := by
  intro s t h
  cases step_flags h with
  | kept same => obtain ⟨hb, hd, he, hc⟩ := same; simp +contextual [hb, hd, he, hc]
  | finished runs flags => obtain ⟨hb, hd, he, hc⟩ := flags; simp +contextual [hb, hd, he, hc, runs]
  | aborted abort flags => obtain ⟨hb, hd, he, hc⟩ := flags; simp +contextual [hb, hd, he, hc, abort]
  | begun start idle passes flags =>
    obtain ⟨hb, hd, he, hc⟩ := flags; simp [hb, hd, he, hc, start, idle, passes]
  | rejected start idle fails flags =>
    obtain ⟨hb, hd, he, hc⟩ := flags; simp [hb, hd, he, hc, start, idle, fails]
  | reset next flags => obtain ⟨hb, hd, he, hc⟩ := flags; simp [hb, hd, he, hc, next]

/-! ## The invariant -/

theorem runParamBad_eq_false_iff {v : Word} {hi : Nat} :
    runParamBad v hi = false ↔ 1 ≤ v.toNat ∧ v.toNat ≤ hi := by
  have h0 : v = 0#32 ↔ v.toNat = 0 := BitVec.toNat_inj.symm
  simp only [runParamBad, Bool.or_eq_false_iff, beq_eq_false_iff_ne, decide_eq_false_iff_not, ne_eq, h0]
  omega

theorem State.badSymbol_eq_false_iff (s : State) : s.badSymbol = false ↔ ∀ p, p < s.n.toNat → s.oorAt p = false := by
  simp [State.badSymbol]

/-- START's check passes exactly a legal configuration (60_exceptions.md R181). -/
theorem State.cfgCheck_eq_zero_iff (s : State) : s.cfgCheck = 0#4 ↔ s.ConfigLegal := by
  have h0 : s.n ≠ 0#32 ↔ 1 ≤ s.n.toNat := by rw [Nat.one_le_iff_ne_zero]; exact BitVec.toNat_inj.symm.not
  have hcheck : s.cfgCheck = 0#4 ↔ s.n ≠ 0#32 ∧ ¬s.nmax < s.n.toNat ∧ runParamBad s.mrn 15 = false ∧
      runParamBad s.mrw 4095 = false ∧ s.badSymbol = false := by
    unfold State.cfgCheck
    split_ifs <;> simp_all
  rw [hcheck, h0, Nat.not_lt, runParamBad_eq_false_iff, runParamBad_eq_false_iff, s.badSymbol_eq_false_iff,
    ← and_assoc (a := 1 ≤ s.n.toNat)]

theorem State.cfgCheck_toNat_le (s : State) : s.cfgCheck.toNat ≤ 4 := by
  unfold State.cfgCheck
  split_ifs <;> decide

/-- Each event that sets a flag clears the others or finds them clear. -/
theorem FlagStep.flagsOk {s t : State} (h : FlagStep s t) (hs : s.FlagsOk) : t.FlagsOk := by
  obtain ⟨hbd, hbe, hde, hcode, hle⟩ := hs
  have hcheck := s.cfgCheck_toNat_le
  cases h with
  | kept same =>
    obtain ⟨hb, hd, he, hc⟩ := same
    unfold State.FlagsOk
    rw [hb, hd, he, hc]
    exact ⟨hbd, hbe, hde, hcode, hle⟩
  | finished runs flags =>
    obtain ⟨hb, hd, he, hc⟩ := flags
    have herr : s.cfgerr = false := by simpa using fun h => hbe ⟨runs.2.1, h⟩
    unfold State.FlagsOk
    rw [hb, hd, he, hc, herr]
    exact ⟨nofun, nofun, nofun, herr ▸ hcode, hle⟩
  | aborted abort flags =>
    obtain ⟨hb, hd, he, hc⟩ := flags
    unfold State.FlagsOk
    rw [hb, hd, he, hc]
    exact ⟨nofun, nofun, hde, hcode, hle⟩
  | begun start idle passes flags | reset next flags =>
    obtain ⟨hb, hd, he, hc⟩ := flags
    unfold State.FlagsOk
    rw [hb, hd, he, hc]
    decide
  | rejected start idle fails flags =>
    obtain ⟨hb, hd, he, hc⟩ := flags
    unfold State.FlagsOk
    rw [hb, hd, he, hc]
    exact ⟨nofun, nofun, nofun, by simp [fails], hcheck⟩

/-- A pass writes only cells that exist, and keeps the order of what is listed. -/
theorem exec_memoriesOk {i : Instr} {s t : State} (hs : s.MemoriesOk) (h : exec i s = .next t) : t.MemoriesOk := by
  have ⟨hsym, ⟨hwf0, hin0⟩, ⟨hwf1, hin1⟩, hwfo, hino⟩ := hs
  cases hb : i.isBufferPass with
  | true =>
    obtain ⟨hn, rfl⟩ := exec_bufferPass_next hb h
    have hlanes : s.lanes ≤ 2 * s.nmax := Nat.mul_le_mul_left 2 hn
    refine ⟨hsym, ?_, ?_, hwfo, hino⟩
    · obtain h0 | h0 := s.bufferNext_buf0 (s.passLane i) <;> rw [h0]
      · exact ⟨hwf0, hin0⟩
      · exact ⟨Memory.wf_fill _ _ hwf0, Memory.within_fill _ hin0 hlanes⟩
    · obtain h1 | h1 := s.bufferNext_buf1 (s.passLane i) <;> rw [h1]
      · exact ⟨hwf1, hin1⟩
      · exact ⟨Memory.wf_fill _ _ hwf1, Memory.within_fill _ hin1 hlanes⟩
  | false =>
    cases i with
    | rdk => obtain ⟨-, rfl⟩ | ⟨-, -, rfl⟩ := exec_rdk_next h <;> exact hs
    | rdw => obtain ⟨-, rfl⟩ | ⟨-, -, rfl⟩ := exec_rdw_next h <;> exact hs
    | fin => obtain rfl := exec_fin_next h; exact hs
    | pck =>
      obtain ⟨hn, -, rfl⟩ := exec_pck_next h
      exact ⟨hsym, ⟨hwf0, hin0⟩, ⟨hwf1, hin1⟩, Memory.wf_fill _ _ hwfo,
        Memory.within_fill _ hino (Nat.mul_le_mul_left 2 hn)⟩
    | rli | rls | sgk | scn | cmp | sgw | exp => cases hb

/-- What no pass writes is all that the legality of a configuration is about. -/
theorem SameOutside.configLegal {s t : State} (h : SameOutside s t) (hs : s.ConfigLegal) : t.ConfigLegal := by
  obtain ⟨hn, hmrn, hmrw, hnmax⟩ := h.config
  unfold State.ConfigLegal State.oorAt
  simp only [hn, hmrn, hmrw, hnmax, h.sym]
  exact hs

/-- Everything of the invariant but the flags. -/
structure State.BodyOk (s : State) : Prop where
  inst   : s.InstanceOk
  mem    : s.MemoriesOk
  config : s.busy = true → s.ConfigLegal

theorem State.inv_iff (s : State) : s.Inv ↔ s.FlagsOk ∧ s.BodyOk :=
  ⟨fun h => ⟨h.flags, h.inst, h.mem, h.config⟩, fun ⟨hf, h⟩ => ⟨h.inst, h.mem, hf, h.config⟩⟩

/-- A pass of a busy machine keeps it: the configuration was legal, and no pass writes it. -/
theorem exec_bodyOk {i : Instr} {s t : State} (hs : s.BodyOk) (hb : s.busy = true) (h : exec i s = .next t) :
    t.BodyOk := by
  obtain ⟨hout, -⟩ := onlyTheNamedPassWrites i s t h
  obtain ⟨-, -, -, hnmax⟩ := hout.config
  refine ⟨?_, exec_memoriesOk hs.mem h, fun _ => hout.configLegal (hs.config hb)⟩
  unfold State.InstanceOk
  rw [hnmax]
  exact hs.inst

/-- An idle machine's configuration is not yet bound by anything. -/
theorem State.BodyOk.of_idle {s : State} (hi : s.InstanceOk) (hm : s.MemoriesOk) (hb : s.busy = false) : s.BodyOk :=
  ⟨hi, hm, fun h => absurd (hb.symm.trans h) nofun⟩

/-- A command keeps it: only a START that passes the check makes the machine busy. -/
theorem State.BodyOk.command {s : State} (hs : s.BodyOk) (w : Word) : (s.command w).BodyOk := by
  obtain h | h | h := s.command_cases w <;> rw [h]
  · obtain ⟨-, h⟩ | ⟨-, h⟩ := s.abort_cases <;> rw [h]
    · exact .of_idle hs.inst hs.mem rfl
    · exact hs
  · obtain ⟨-, h⟩ | ⟨-, hc, h⟩ | ⟨hb, -, h⟩ := s.start_cases <;> rw [h]
    · exact hs
    · exact ⟨hs.inst, hs.mem, fun _ => s.cfgCheck_eq_zero_iff.1 hc⟩
    · exact .of_idle hs.inst hs.mem hb
  · exact hs

/-- A write on the host port keeps it: what it writes it writes while idle, and only cells that exist. -/
theorem State.BodyOk.hostWrite {s : State} (hs : s.BodyOk) (sp : Space) (ix : Nat) (w : Word) :
    (s.hostWrite sp ix w).BodyOk := by
  obtain ⟨-, -, h⟩ | ⟨hb, -, -, h⟩ | ⟨hb, -, -, h⟩ | ⟨hb, -, -, h⟩ | ⟨hb, -, hix, h⟩ | h :=
    s.hostWrite_cases sp ix w <;> rw [h]
  · exact hs.command w
  iterate 3 exact .of_idle hs.inst hs.mem hb
  · obtain ⟨⟨hwf, hin⟩, hrest⟩ := hs.mem
    exact .of_idle hs.inst ⟨⟨Memory.wf_write _ _ hwf, Memory.within_write _ hin hix⟩, hrest⟩ hb
  · exact hs

/-- Every event keeps it. -/
theorem State.BodyOk.event {e : Event} {s t : State} (hs : s.BodyOk) (h : State.event e s = .next t) : t.BodyOk := by
  cases e with
  | pass =>
    obtain ⟨-, rfl⟩ | ⟨hb, _, _, -, -, hx⟩ := State.seqTurn_next h
    · exact hs
    · exact exec_bodyOk (s := s.dropSupplied) ⟨hs.inst, hs.mem, hs.config⟩ hb hx
  | hostWrite sp ix w =>
    injection h with h
    exact h ▸ hs.hostWrite sp ix w
  | hostRead sp ix =>
    injection h with h
    subst h
    exact ⟨hs.inst, hs.mem, hs.config⟩
  | reset =>
    injection h with h
    subst h
    exact .of_idle hs.inst (State.resetOf_canonical (draw := 0) hs.inst.1 hs.inst.2).inv.mem rfl

/-- Settles O28: the flags by what a step can do to them, the rest by what its event can do. -/
theorem stepKeepsTheInvariant : Obligations.StepKeepsTheInvariant := by
  intro s t hs h
  have hflags := (step_flags h).flagsOk hs.flags
  rw [step_eq_event] at h
  have hbody : State.BodyOk { s with inbox := s.inbox.tail } := ⟨hs.inst, hs.mem, hs.config⟩
  exact t.inv_iff.2 ⟨hflags, hbody.event h⟩

end Sys2Proof.Machine
end

section
/-! PROOFS. `PROG(N)` as pass operations (46_sequencer_host.md R151): its words, and a run of it as the run of a list of
passes. -/

namespace Sys2Proof.Machine

/-! ## The program as pass operations -/

/-- `PROG(N)` for `LOGN = l` without its last word, FIN, as pass operations (46_sequencer_host.md R151). -/
def progBody (l : Nat) : List Instr :=
  .rli :: (ascending .rls l ++ [.sgk] ++ ascending .scn l ++ [.rdk] ++ ascending .cmp l ++ [.sgw] ++ ascending .scn l
    ++ [.rdw] ++ descending .exp l ++ [.pck])

theorem decode_encode {i : Instr} (h : i.wellFormed = true) : decode (encode i) = .instr i := by
  cases i with
  | rli | sgk | rdk | sgw | rdw | pck | fin => rfl
  | rls k | scn k | cmp k | exp k => revert k; decide

/-- A stage's base word plus a step index is the word of its operation at that step. -/
theorem base_add_eq_encode {i : Nat} (h : i < 32) :
    0x2000#16 + BitVec.ofNat 16 i = encode (.rls (BitVec.ofNat 5 i)) ∧
    0x4000#16 + BitVec.ofNat 16 i = encode (.scn (BitVec.ofNat 5 i)) ∧
    0x6000#16 + BitVec.ofNat 16 i = encode (.cmp (BitVec.ofNat 5 i)) ∧
    0x9000#16 + BitVec.ofNat 16 i = encode (.exp (BitVec.ofNat 5 i)) := by
  revert i; decide

theorem stageUp_eq_map_encode {base : PassWord} {mk : StepIx → Instr} {l : Nat}
    (h : ∀ i, i < l → base + BitVec.ofNat 16 i = encode (mk (BitVec.ofNat 5 i))) :
    stageUp base l = (ascending mk l).map encode := by
  rw [stageUp, ascending, List.map_map]
  exact List.map_congr_left fun i hi => h i (List.mem_range.1 hi)

theorem stageDown_eq_map_encode {base : PassWord} {mk : StepIx → Instr} {l : Nat}
    (h : ∀ i, i < l → base + BitVec.ofNat 16 i = encode (mk (BitVec.ofNat 5 i))) :
    stageDown base l = (descending mk l).map encode := by
  rw [stageDown, descending, List.map_map]
  refine List.map_congr_left fun k hk => h _ ?_
  have := List.mem_range.1 hk
  omega

theorem progOf_eq_map_encode {l : Nat} (hl : l ≤ 31) : progOf l = (progBody l ++ [Instr.fin]).map encode := by
  have hword : ∀ i, i < l → i < 32 := fun i hi => by omega
  rw [progOf, stageUp_eq_map_encode fun i hi => (base_add_eq_encode (hword i hi)).1,
    stageUp_eq_map_encode fun i hi => (base_add_eq_encode (hword i hi)).2.1,
    stageUp_eq_map_encode fun i hi => (base_add_eq_encode (hword i hi)).2.2.1,
    stageDown_eq_map_encode fun i hi => (base_add_eq_encode (hword i hi)).2.2.2]
  simp [progBody, encode, wordU]

theorem progBody_length (l : Nat) : (progBody l).length = 5 * l + 6 := by
  simp only [progBody, ascending, descending, List.length_cons, List.length_append, List.length_map, List.length_range,
    List.length_nil]
  omega

/-- Every operation of the program's body is well-formed, and none is FIN. -/
theorem progBody_wellFormed {l : Nat} (hl : l ≤ 31) : ∀ i ∈ progBody l, i.wellFormed = true ∧ i ≠ .fin := by
  have hlegal : ∀ k, k < 31 → legalStep (BitVec.ofNat 5 k) = true := by decide
  have hup : ∀ k, k < l → legalStep (BitVec.ofNat 5 k) = true := fun k hk => hlegal k (by omega)
  have hdown : ∀ k, k < l → legalStep (BitVec.ofNat 5 (l - 1 - k)) = true := fun k hk => hlegal _ (by omega)
  simp +contextual [progBody, ascending, descending, or_imp, forall_and, Instr.wellFormed, hup, hdown]

/-! ## A run of the program -/

/-- The sequencer is about to run the passes `is`, the rest of its program, undisturbed. -/
structure State.Running (s : State) (is : List Instr) : Prop where
  busy    : s.busy = true
  noEvent : s.inbox = []
  noWords : s.supplied = []
  lanes   : s.n ≠ 0#32
  rest    : (progOf (clog2 s.n.toNat)).drop s.pc.toNat = is.map encode
  fits    : s.pc.toNat + is.length < 256
  legal   : ∀ i ∈ is, i.wellFormed = true

/-- The next step runs the first of the passes. -/
theorem State.Running.step_eq {s : State} {i : Instr} {is : List Instr} (h : s.Running (i :: is)) :
    step s = exec i s := by
  have hword : (progOf (clog2 s.n.toNat))[s.pc.toNat]? = some (encode i) := by
    have h0 := congrArg (·[0]?) h.rest
    simpa [List.getElem?_drop] using h0
  have hfetch : s.fetchWord = some (encode i) := by
    rw [State.fetchWord, h.noWords, State.progWord, if_neg h.lanes, hword]
  have hdrop : s.dropSupplied = s := by
    rw [State.dropSupplied, h.noWords, List.tail_nil, ← h.noWords]
  rw [step, State.transition, h.noEvent]
  have hdecode := decode_encode (h.legal i (List.mem_cons_self ..))
  simp only [State.seqTurn, h.busy, if_true, State.seqStep, hfetch, hdecode, hdrop]

/-- After a pass other than FIN the sequencer is about to run the others. -/
theorem State.Running.exec_next {s t : State} {i : Instr} {is : List Instr} (h : s.Running (i :: is)) (hi : i ≠ .fin)
    (hx : exec i s = .next t) : t.Running is := by
  obtain ⟨hout, hpc, hflags, -⟩ := onlyTheNamedPassWrites i s t hx
  obtain ⟨hn, -, -, -⟩ := hout.config
  obtain ⟨hinbox, -, hsupplied, -⟩ := hout.models
  have hfits : s.pc.toNat + (is.length + 1) < 256 := h.fits
  have hpcNat : t.pc.toNat = s.pc.toNat + 1 := by
    rw [hpc, BitVec.toNat_add]
    exact Nat.mod_eq_of_lt (show s.pc.toNat + 1 < 2 ^ 8 by omega)
  refine ⟨(hflags hi).1.1.trans h.busy, hinbox.trans h.noEvent, hsupplied.trans h.noWords, hn ▸ h.lanes, ?_,
    by omega, fun j hj => h.legal j (List.mem_cons_of_mem _ hj)⟩
  rw [hn, hpcNat, ← List.tail_drop, h.rest]
  rfl

theorem core_run_of_next {k : Nat} {s t : State} (h : step s = .next t) :
    Host.Core.run Sys2Proof.core (k + 1) s = Host.Core.run Sys2Proof.core k t := by
  have hstep : Sys2Proof.core.step s = .next t := h
  simp only [Host.Core.run, hstep]

theorem runPasses_of_next {i : Instr} {is : List Instr} {s t : State} (h : exec i s = .next t) :
    runPasses (i :: is) s = runPasses is t := by
  simp only [runPasses, h]

/-- The machine's run of a program that ends in FIN is the run of its passes. -/
theorem State.Running.run_eq_runPasses {s : State} {body : List Instr} (h : s.Running (body ++ [.fin]))
    (hbody : ∀ i ∈ body, i ≠ .fin) :
    Host.Core.run Sys2Proof.core (body.length + 1) s = runPasses (body ++ [.fin]) s := by
  induction body generalizing s with
  | nil =>
    rw [List.length_nil, List.nil_append, core_run_of_next (h.step_eq.trans rfl)]
    rfl
  | cons i body ih =>
    have hstep : Sys2Proof.core.step s = exec i s := h.step_eq
    cases hx : exec i s with
    | next t =>
      have ht := h.exec_next (hbody i (List.mem_cons_self ..)) hx
      rw [List.length_cons, List.cons_append, core_run_of_next (hstep.trans hx), runPasses_of_next hx]
      exact ih ht fun j hj => hbody j (List.mem_cons_of_mem _ hj)
    | fault r | refused r =>
      simp only [List.cons_append, Host.Core.run, runPasses, hstep, hx]
      rfl

/-! ## An encode from its START -/

/-- A number of lanes that START's check passes, with `NMAX` in its range (60_exceptions.md R181, 00_scope.md R6). -/
abbrev State.SizeOk (s : State) : Prop := 1 ≤ s.n.toNat ∧ s.n.toNat ≤ s.nmax ∧ s.nmax ≤ 2 ^ 29

theorem State.SizeOk.n_ne_zero {s : State} (h : s.SizeOk) : s.n ≠ 0#32 := fun h0 => absurd h.1 (by simp [h0])

theorem State.Inv.sizeOk {s : State} (h : s.Inv) (hb : s.busy = true) : s.SizeOk := by
  obtain ⟨⟨h1, hn⟩, -⟩ := h.config hb
  exact ⟨h1, hn, h.inst.2⟩

theorem State.SizeOk.clog2_n_le {s : State} (h : s.SizeOk) : clog2 s.n.toNat ≤ 29 :=
  clog2_le (h.2.1.trans h.2.2)

theorem State.Started.running {s : State} (h : s.Started) : s.Running (progBody (clog2 s.n.toNat) ++ [.fin]) := by
  have hsize := h.inv.sizeOk h.busy
  have hl := hsize.clog2_n_le
  refine ⟨h.busy, h.noEvent, h.noWords, hsize.n_ne_zero, ?_, ?_, ?_⟩
  · rw [h.pcZero]
    exact progOf_eq_map_encode (by omega)
  · rw [h.pcZero, List.length_append, progBody_length]
    show 0 + (_ + 1) < 256
    omega
  · intro i hi
    rcases List.mem_append.1 hi with hi | hi
    · exact (progBody_wellFormed (hl.trans (by decide)) i hi).1
    · rw [List.mem_singleton.1 hi]; rfl

/-- The encode a START begins is the run of the program's passes. -/
theorem State.Started.run_eq_runPasses {s : State} (h : s.Started) :
    Host.Core.run Sys2Proof.core (5 * clog2 s.n.toNat + 7) s = runPasses (progBody (clog2 s.n.toNat) ++ [.fin]) s := by
  have hl := (h.inv.sizeOk h.busy).clog2_n_le
  rw [← h.running.run_eq_runPasses fun i hi => (progBody_wellFormed (hl.trans (by decide)) i hi).2, progBody_length]

end Sys2Proof.Machine
end

section
/-! PROOFS. The gathers of a run stay in range, so no pass of the program stops (20_memory.md R51); and what an encode
computes depends on its inputs alone (10_state.md R37). -/

namespace Sys2Proof.Machine

/-! ## Gathers in range -/

/-- A content's `b` is no lane or one of the first `n` (20_memory.md R51). -/
def Lane.GathersBelow (c : Lane) (n : Nat) : Prop := c.b = noLane ∨ c.b.toNat < n

theorem Lane.empty_gathersBelow (n : Nat) : Lane.empty.GathersBelow n := .inl rfl

/-- Every front lane's `b` is no lane or a symbol's index: `Canonical.gathers` without its premises. -/
def State.GathersOk (s : State) : Prop := ∀ p, p < s.lanes → (s.front p).GathersBelow s.n.toNat

/-- An unsigned index below `N` is a signed one in `[0, N)`, so no gather is refused. -/
theorem State.GathersOk.gatherOk {s : State} (hg : s.GathersOk) (hs : s.SizeOk) {bound : Nat} (hb : bound ≤ s.lanes) :
    s.gatherOk bound = true := by
  obtain ⟨-, hn, hmax⟩ := hs
  refine (s.gatherOk_iff bound).2 fun p hp hne => ?_
  have hlt : (s.front p).b.toNat < s.n.toNat := (hg p (hp.trans_le hb)).resolve_left hne
  rw [BitVec.toInt_eq_toNat_of_lt (by omega)]
  omega

/-- Lane `N - 1` exists where `N` is at most `NMAX`, and `N = 0` reads back a free value: no readback stops. -/
theorem State.readback_answers {s : State} (h : s.n.toNat ≤ s.nmax) (k : Word → State → State) :
    ∃ t, s.readback k = .next t := by
  unfold State.readback
  split
  · exact ⟨_, rfl⟩
  · next h0 =>
    have hpos : s.n.toNat ≠ 0 := fun h => h0 (BitVec.eq_of_toNat_eq h)
    exact ⟨_, if_pos (by omega)⟩

/-- With its lanes present and its gathers in range, no well-formed pass stops. -/
theorem exec_answers {s : State} {i : Instr} (hs : s.SizeOk) (hg : i = .rli ∨ s.GathersOk) (hi : i.wellFormed = true) :
    ∃ t, exec i s = .next t := by
  have hn : s.n.toNat ≤ s.nmax := hs.2.1
  have hgather : i ≠ .rli → ∀ bound, bound ≤ s.lanes → s.gatherOk bound = true :=
    fun h _ => (hg.resolve_left h).gatherOk hs
  cases i with
  | rli | sgk => exact ⟨_, s.guardLanes_of_le hn _⟩
  | rls k | scn k | cmp k => exact ⟨_, (guardStep_of_legalStep hi _).trans (s.guardLanes_of_le hn _)⟩
  | sgw => exact ⟨_, s.guardGather_of_ok hn (hgather nofun _ (by unfold State.lanes; omega)) _⟩
  | exp k =>
    exact ⟨_, (guardStep_of_legalStep hi _).trans (s.guardGather_of_ok hn (hgather nofun _ le_rfl) _)⟩
  | pck => exact ⟨_, s.guardGather_of_ok hn (hgather nofun _ le_rfl) _⟩
  | rdk => exact State.readback_answers hn fun v t => (t.setKeepCounts v (t.n - v)).advancePc
  | rdw => exact State.readback_answers hn fun v t => (t.setWideCount v).advancePc
  | fin => exact ⟨_, rfl⟩

/-- A front lane after a pass is what the pass computes for it, which for the four that write no lane is what it was. -/
theorem exec_front {i : Instr} {s t : State} (h : exec i s = .next t) {p : Nat} (hp : p < s.lanes) :
    t.front p = s.passLane i p := by
  cases hb : i.isBufferPass with
  | true =>
    obtain ⟨-, rfl⟩ := exec_bufferPass_next hb h
    rw [s.front_bufferNext, if_pos hp]
  | false =>
    obtain ⟨-, -, -, -, -, -, -, hbanks, -⟩ := onlyTheNamedPassWrites i s t h
    obtain ⟨hcur, hlane⟩ := hbanks hb
    have hkept : t.front p = s.front p := by rw [State.front, hcur, hlane]; rfl
    cases i with
    | rdk | rdw | pck | fin => exact hkept
    | rli | rls | sgk | scn | cmp | sgw | exp => cases hb

theorem State.sourceLane_gathersBelow {s : State} {f : Nat → Lane} {n : Nat}
    (h : ∀ p, p < s.n.toNat → (f p).GathersBelow n) (p : Nat) : (s.sourceLane f p).GathersBelow n := by
  unfold State.sourceLane
  split
  · exact h p ‹_›
  · exact Lane.empty_gathersBelow n

theorem route_gathersBelow {pull keep : Bool} {pulled kept : Lane} {n : Nat}
    (hpull : pull = true → pulled.GathersBelow n) (hkept : kept.GathersBelow n) :
    (route pull keep pulled kept).GathersBelow n := by
  unfold route
  split
  · exact hpull ‹_›
  · split
    · exact hkept
    · exact Lane.empty_gathersBelow n

/-- What a pass computes has a `b` it took from a front lane, or a lane index below `N`, or none. -/
theorem State.passLane_gathersBelow {s : State} {i : Instr} (hs : s.SizeOk) (hg : i = .rli ∨ s.GathersOk) {p : Nat}
    (hp : p < s.lanes) : (s.passLane i p).GathersBelow s.n.toNat := by
  obtain ⟨hn, hle, hmax⟩ := hs
  have hfront : i ≠ .rli → ∀ q, q < s.lanes → (s.front q).GathersBelow s.n.toNat := fun h => hg.resolve_left h
  have hlanes : ∀ q, q < s.n.toNat → q < s.lanes := fun q hq => by unfold State.lanes; omega
  cases i with
  | rli => exact State.sourceLane_gathersBelow (fun _ _ => .inr hn) p
  | rls k =>
    refine State.sourceLane_gathersBelow (fun q hq => ?_) p
    unfold State.rlsLane
    split <;> exact hfront nofun q (hlanes q hq)
  | scn k =>
    refine State.sourceLane_gathersBelow (fun q hq => ?_) p
    unfold State.scnLane
    split <;> exact hfront nofun q (hlanes q hq)
  | sgk =>
    refine State.sourceLane_gathersBelow (fun q hq => ?_) p
    unfold State.sgkLane
    split
    · refine .inr ?_
      rw [BitVec.toNat_ofNat, Nat.mod_eq_of_lt (by omega)]
      exact hq
    · exact Lane.empty_gathersBelow _
  | cmp k =>
    refine State.sourceLane_gathersBelow (fun q hq => ?_) p
    refine route_gathersBelow (fun hpull => hfront nofun _ (hlanes _ ?_)) (hfront nofun q (hlanes q hq))
    exact of_decide_eq_true (Bool.and_elim_left hpull)
  | sgw =>
    refine State.sourceLane_gathersBelow (fun q hq => ?_) p
    unfold State.sgwLane
    split
    · exact hfront nofun q (hlanes q hq)
    · exact Lane.empty_gathersBelow _
  | exp k => exact route_gathersBelow (fun _ => hfront nofun _ (by omega)) (hfront nofun p hp)
  | rdk | rdw | pck | fin => exact hfront nofun p hp

theorem exec_n_nmax {i : Instr} {s t : State} (h : exec i s = .next t) : t.n = s.n ∧ t.nmax = s.nmax := by
  obtain ⟨hout, -⟩ := onlyTheNamedPassWrites i s t h
  obtain ⟨hn, -, -, hnmax⟩ := hout.config
  exact ⟨hn, hnmax⟩

theorem exec_sizeOk {i : Instr} {s t : State} (hs : s.SizeOk) (h : exec i s = .next t) : t.SizeOk := by
  obtain ⟨hn, hnmax⟩ := exec_n_nmax h
  unfold State.SizeOk
  rwa [hn, hnmax]

/-- RLI brings the gathers in range and every pass keeps them there. -/
theorem exec_gathersOk {i : Instr} {s t : State} (hs : s.SizeOk) (hg : i = .rli ∨ s.GathersOk)
    (h : exec i s = .next t) : t.GathersOk := by
  intro p hp
  rw [State.lanes, (exec_n_nmax h).1] at hp
  rw [exec_front h hp, (exec_n_nmax h).1]
  exact State.passLane_gathersBelow hs hg hp

/-- No pass of a list stops once the gathers are in range, or if RLI comes first. -/
theorem runPasses_answers {is : List Instr} {s : State} (hs : s.SizeOk) (hg : is.head? = some .rli ∨ s.GathersOk)
    (hwf : ∀ i ∈ is, i.wellFormed = true) : ∃ t, runPasses is s = .next t := by
  induction is generalizing s with
  | nil => exact ⟨s, rfl⟩
  | cons i is ih =>
    have hg' : i = .rli ∨ s.GathersOk := hg.imp_left Option.some.inj
    obtain ⟨t, ht⟩ := exec_answers hs hg' (hwf i (List.mem_cons_self ..))
    rw [runPasses_of_next ht]
    exact ih (exec_sizeOk hs ht) (.inr (exec_gathersOk hs hg' ht)) fun j hj => hwf j (List.mem_cons_of_mem _ hj)

/-- An encode begun by a START never stops. -/
theorem State.Started.program_answers {s : State} (h : s.Started) :
    ∃ t, runPasses (progBody (clog2 s.n.toNat) ++ [.fin]) s = .next t :=
  runPasses_answers (h.inv.sizeOk h.busy) (.inl rfl) h.running.legal

/-! ## Two states with the same inputs -/

/-- The inputs of an encode, and where the machine is in it, are the same. -/
structure SameInputs (s s' : State) : Prop where
  n   : s'.n = s.n
  mrn : s'.mrn = s.mrn
  mrw : s'.mrw = s.mrw
  sym : ∀ p, p < s.n.toNat → s'.symAt p = s.symAt p
  pc  : s'.pc = s.pc
  cur : s'.cur = s.cur

/-- The front lanes an encode uses are the same. -/
def SameFront (s s' : State) : Prop := ∀ p, p < s.lanes → s'.front p = s.front p

theorem SameInputs.lanes {s s' : State} (h : SameInputs s s') : s'.lanes = s.lanes := by
  rw [State.lanes, State.lanes, h.n]

theorem exec_cur {i : Instr} {s t : State} (h : exec i s = .next t) :
    t.cur = if i.isBufferPass then s.cur.other else s.cur := by
  cases hb : i.isBufferPass with
  | true => exact (bufferPassFrame i s t hb h).cur
  | false =>
    obtain ⟨-, -, -, -, -, -, -, hbanks, -⟩ := onlyTheNamedPassWrites i s t h
    exact (hbanks hb).1

theorem SameInputs.exec_next {i : Instr} {s s' t t' : State} (hin : SameInputs s s') (h : exec i s = .next t)
    (h' : exec i s' = .next t') : SameInputs t t' := by
  obtain ⟨hout, hpc, -⟩ := onlyTheNamedPassWrites i s t h
  obtain ⟨hout', hpc', -⟩ := onlyTheNamedPassWrites i s' t' h'
  obtain ⟨hn, hmrn, hmrw, -⟩ := hout.config
  obtain ⟨hn', hmrn', hmrw', -⟩ := hout'.config
  refine ⟨by rw [hn, hn', hin.n], by rw [hmrn, hmrn', hin.mrn], by rw [hmrw, hmrw', hin.mrw], fun p hp => ?_,
    by rw [hpc, hpc', hin.pc], by rw [exec_cur h, exec_cur h', hin.cur]⟩
  rw [State.symAt_eq_of_symCell (hout.sym p), State.symAt_eq_of_symCell (hout'.sym p)]
  exact hin.sym p (hn ▸ hp)

/-! ## What a pass computes depends on the inputs and the front lanes -/

theorem Lane.valid_and_congr {c : Lane} {x y : Bool} (h : c.valid = true → x = y) :
    (c.valid && x) = (c.valid && y) := by
  cases hv : c.valid with
  | false => rfl
  | true => rw [h hv]

section
variable {s s' : State} (hin : SameInputs s s')
include hin

theorem SameInputs.sourceLane_congr {f f' : Nat → Lane} (h : ∀ p, p < s.n.toNat → f' p = f p) (p : Nat) :
    s'.sourceLane f' p = s.sourceLane f p := by
  unfold State.sourceLane
  rw [hin.n]
  split
  · exact h p ‹_›
  · rfl

/-- The symbol a valid content gathers. -/
theorem SameInputs.symOf_congr {c : Lane} (hc : c.GathersBelow s.n.toNat) (hv : c.valid = true) :
    s'.symOf c.b = s.symOf c.b :=
  hin.sym _ (hc.resolve_left (c.valid_iff.1 hv))

theorem SameInputs.dispE_congr {c : Lane} (hc : c.GathersBelow s.n.toNat) (hv : c.valid = true) :
    s'.dispE c = s.dispE c := by
  rw [State.dispE, State.dispE, hin.symOf_congr hc hv]

theorem SameInputs.maxRun_congr (x : Symbol) : s'.maxRun x = s.maxRun x := by
  rw [State.maxRun, State.maxRun, hin.mrn, hin.mrw]

/-- RLI reads no lane. -/
theorem SameInputs.passLane_rli (p : Nat) : s'.passLane .rli p = s.passLane .rli p :=
  hin.sourceLane_congr (f := fun _ => ⟨1#32, 0#32⟩) (fun _ _ => rfl) p

theorem SameInputs.expLane_congr (hf : SameFront s s') (hg : s.GathersOk) (k : StepIx) {x : Nat} (hx : x < s.lanes) :
    s'.expLane k x = s.expLane k x := by
  have hbit : ∀ y, y < s.lanes → (s.front y).valid = true →
      bitOf (s'.dispE (s.front y)) k = bitOf (s.dispE (s.front y)) k := fun y hy hv => by
    rw [hin.dispE_congr (hg y hy) hv]
  have hy : x - offset k < s.lanes := by omega
  rw [State.expLane, State.expLane, hf x hx, hf _ hy, Lane.valid_and_congr (hbit _ hy),
    Lane.valid_and_congr fun hv => congrArg not (hbit x hx hv)]

/-- Every pass computes the same lanes. -/
theorem SameInputs.passLane_congr (hf : SameFront s s') (hg : s.GathersOk) (i : Instr) {p : Nat} (hp : p < s.lanes) :
    s'.passLane i p = s.passLane i p := by
  have hlanes : ∀ q, q < s.n.toNat → q < s.lanes := fun q hq => by unfold State.lanes; omega
  have hsrc : ∀ q, q < s.n.toNat → s'.front q = s.front q := fun q hq => hf q (hlanes q hq)
  cases i with
  | rli => exact hin.passLane_rli p
  | rls k =>
    refine hin.sourceLane_congr (fun q hq => ?_) p
    have hleft : q - offset k < s.n.toNat := by omega
    rw [State.rlsLane, State.rlsLane, hsrc q hq, hsrc _ hleft, hin.sym q hq, hin.sym _ hleft]
  | scn k =>
    refine hin.sourceLane_congr (fun q hq => ?_) p
    rw [State.scnLane, State.scnLane, hsrc q hq, hsrc (q - offset k) (by omega)]
  | sgk =>
    refine hin.sourceLane_congr (fun q hq => ?_) p
    rw [State.sgkLane, State.sgkLane, hsrc q hq, hin.sym q hq, hin.maxRun_congr]
  | cmp k =>
    refine hin.sourceLane_congr (fun q hq => ?_) p
    rw [State.cmpLane, State.cmpLane, hsrc q hq, hin.n]
    by_cases hright : q + offset k < s.n.toNat
    · rw [hsrc _ hright]
    · simp only [hright, decide_false, Bool.false_and, route, Bool.false_eq_true, if_false]
  | sgw =>
    refine hin.sourceLane_congr (fun q hq => ?_) p
    rw [State.sgwLane, State.sgwLane, hsrc q hq]
    split
    · rw [hin.symOf_congr (hg q (hlanes q hq)) ‹_›]
    · rfl
  | exp k => exact hin.expLane_congr hf hg k hp
  | rdk | rdw | pck | fin => exact hf p hp

theorem SameInputs.nextSrc_congr (hf : SameFront s s') (d : Nat) : s'.nextSrc d = s.nextSrc d := by
  unfold State.nextSrc
  rw [hin.lanes, hin.n]
  by_cases hd : d < s.lanes
  · rw [hf d hd]
  · simp only [hd, decide_false, Bool.false_and, Bool.false_eq_true, if_false]

theorem SameInputs.secondOfWide_congr (hf : SameFront s s') (hg : s.GathersOk) {d : Nat} (hd : d < s.lanes) :
    s'.secondOfWide d = s.secondOfWide d := by
  have hleft : d - 1 < s.lanes := by omega
  rw [State.secondOfWide, State.secondOfWide, hf _ hleft,
    Lane.valid_and_congr fun hv => congrArg isWide (hin.symOf_congr (hg _ hleft) hv)]

theorem SameInputs.packByte_congr (hf : SameFront s s') (hg : s.GathersOk) {d : Nat} (hd : d < s.lanes) :
    s'.packByte d = s.packByte d := by
  unfold State.packByte
  rw [hf d hd, hf (d - 1) (by omega), hin.nextSrc_congr hf, hin.nextSrc_congr hf, hin.secondOfWide_congr hf hg hd]
  split
  · rw [hin.symOf_congr (hg d hd) ‹_›]
  · rfl

end

/-! ## Two runs with the same inputs -/

/-- Two runs with the same inputs, and with gathers in range, agree after the passes `done`: on the front lanes, and on
each result whose pass is one of them. -/
structure AgreeAfter (done : List Instr) (s s' : State) : Prop where
  size    : s.SizeOk
  gathers : s.GathersOk
  inputs  : SameInputs s s'
  front   : SameFront s s'
  keep    : .rdk ∈ done → s'.keepcnt = s.keepcnt ∧ s'.repeatcnt = s.repeatcnt
  wide    : .rdw ∈ done → s'.widecnt = s.widecnt
  out     : .pck ∈ done → ∀ d, d < s.lanes → s'.outAt d = s.outAt d

theorem exec_rdk_counts {s t : State} (hn : s.n ≠ 0#32) (h : exec .rdk s = .next t) :
    t.keepcnt = (s.front (s.n.toNat - 1)).a ∧ t.repeatcnt = s.n - (s.front (s.n.toNat - 1)).a := by
  obtain ⟨h0, -⟩ | ⟨-, -, rfl⟩ := exec_rdk_next h
  · exact absurd h0 hn
  · exact ⟨rfl, rfl⟩

theorem exec_rdw_count {s t : State} (hn : s.n ≠ 0#32) (h : exec .rdw s = .next t) :
    t.widecnt = (s.front (s.n.toNat - 1)).a := by
  obtain ⟨h0, -⟩ | ⟨-, -, rfl⟩ := exec_rdw_next h
  · exact absurd h0 hn
  · rfl

theorem exec_pck_outAt {s t : State} (h : exec .pck s = .next t) {d : Nat} (hd : d < s.lanes) :
    t.outAt d = s.packByte d := by
  obtain ⟨-, -, rfl⟩ := exec_pck_next h
  exact (s.outAt_fillOut _ d).trans (if_pos hd)

/-- Front lanes that a pass computes alike are the same after it. -/
theorem SameInputs.sameFront_exec {i : Instr} {s s' t t' : State} (hin : SameInputs s s') (h : exec i s = .next t)
    (h' : exec i s' = .next t') (hlane : ∀ p, p < s.lanes → s'.passLane i p = s.passLane i p) : SameFront t t' := by
  intro p hp
  rw [State.lanes, (exec_n_nmax h).1] at hp
  rw [exec_front h hp, exec_front h' (hin.lanes ▸ hp), hlane p hp]

/-- RLI makes two runs agree, whatever their banks held. -/
theorem SameInputs.agreeAfter_rli {s s' t t' : State} (hin : SameInputs s s') (hs : s.SizeOk)
    (h : exec .rli s = .next t) (h' : exec .rli s' = .next t') : AgreeAfter [.rli] t t' where
  size    := exec_sizeOk hs h
  gathers := exec_gathersOk hs (.inl rfl) h
  inputs  := hin.exec_next h h'
  front   := hin.sameFront_exec h h' fun p _ => hin.passLane_rli p
  keep    := by simp
  wide    := by simp
  out     := by simp

/-- Every pass keeps two runs in agreement and adds its own result to what they agree on. -/
theorem AgreeAfter.exec_next {done : List Instr} {i : Instr} {s s' t t' : State} (hag : AgreeAfter done s s')
    (h : exec i s = .next t) (h' : exec i s' = .next t') : AgreeAfter (i :: done) t t' := by
  obtain ⟨hs, hg, hin, hf, hkeep, hwide, hout⟩ := hag
  obtain ⟨-, -, -, hrdk, hrdw, hpck, -⟩ := onlyTheNamedPassWrites i s t h
  obtain ⟨-, -, -, hrdk', hrdw', hpck', -⟩ := onlyTheNamedPassWrites i s' t' h'
  have hn : s.n ≠ 0#32 := hs.n_ne_zero
  have hn' : s'.n ≠ 0#32 := hin.n ▸ hn
  have hlast : s'.front (s'.n.toNat - 1) = s.front (s.n.toNat - 1) := by
    have hpos := hs.1
    rw [hin.n]
    exact hf _ (by unfold State.lanes; omega)
  refine ⟨exec_sizeOk hs h, exec_gathersOk hs (.inr hg) h, hin.exec_next h h',
    hin.sameFront_exec h h' fun p hp => hin.passLane_congr hf hg i hp, fun hm => ?_, fun hm => ?_, fun hm d hd => ?_⟩
  · by_cases hi : i = .rdk
    · subst hi
      obtain ⟨hk, hr⟩ := exec_rdk_counts hn h
      obtain ⟨hk', hr'⟩ := exec_rdk_counts hn' h'
      rw [hk, hk', hr, hr', hlast, hin.n]
      exact ⟨rfl, rfl⟩
    · obtain ⟨hk, hr⟩ := hrdk hi
      obtain ⟨hk', hr'⟩ := hrdk' hi
      rw [hk, hk', hr, hr']
      exact hkeep ((List.mem_cons.1 hm).resolve_left (Ne.symm hi))
  · by_cases hi : i = .rdw
    · subst hi
      rw [exec_rdw_count hn h, exec_rdw_count hn' h', hlast]
    · rw [hrdw hi, hrdw' hi]
      exact hwide ((List.mem_cons.1 hm).resolve_left (Ne.symm hi))
  · rw [State.lanes, (exec_n_nmax h).1] at hd
    by_cases hi : i = .pck
    · subst hi
      rw [exec_pck_outAt h hd, exec_pck_outAt h' (hin.lanes ▸ hd), hin.packByte_congr hf hg hd]
    · rw [hpck hi, hpck' hi]
      exact hout ((List.mem_cons.1 hm).resolve_left (Ne.symm hi)) d hd

theorem runPasses_cons_next {i : Instr} {is : List Instr} {s u : State} (h : runPasses (i :: is) s = .next u) :
    ∃ t, exec i s = .next t ∧ runPasses is t = .next u := by
  unfold runPasses at h
  split at h
  · exact ⟨_, ‹_›, h⟩
  all_goals cases h

theorem runPasses_append_next {is js : List Instr} {s u : State} (h : runPasses (is ++ js) s = .next u) :
    ∃ t, runPasses is s = .next t ∧ runPasses js t = .next u := by
  induction is generalizing s with
  | nil => exact ⟨s, rfl, h⟩
  | cons i is ih =>
    obtain ⟨m, hm, h⟩ := runPasses_cons_next h
    obtain ⟨t, ht, h⟩ := ih h
    exact ⟨t, (runPasses_of_next hm).trans ht, h⟩

theorem runPasses_n {is : List Instr} {s t : State} (h : runPasses is s = .next t) : t.n = s.n := by
  induction is generalizing s with
  | nil => injection h with h; rw [h]
  | cons i is ih =>
    obtain ⟨m, hm, h⟩ := runPasses_cons_next h
    rw [ih h, (exec_n_nmax hm).1]

/-- Every list of passes keeps two runs in agreement. -/
theorem AgreeAfter.runPasses_next {done is : List Instr} {s s' t t' : State} (hag : AgreeAfter done s s')
    (h : runPasses is s = .next t) (h' : runPasses is s' = .next t') : AgreeAfter (is.reverse ++ done) t t' := by
  induction is generalizing done s s' with
  | nil =>
    injection h with h
    injection h' with h'
    exact h ▸ h' ▸ hag
  | cons i is ih =>
    obtain ⟨m, hm, h⟩ := runPasses_cons_next h
    obtain ⟨m', hm', h'⟩ := runPasses_cons_next h'
    rw [List.reverse_cons, List.append_assoc]
    exact ih (hag.exec_next hm hm') h h'

/-- FIN sizes the output alike where both counts are agreed on. -/
theorem AgreeAfter.mbytes_fin {done : List Instr} {s s' t t' : State} (hag : AgreeAfter done s s') (hk : .rdk ∈ done)
    (hw : .rdw ∈ done) (h : exec .fin s = .next t) (h' : exec .fin s' = .next t') :
    t'.mbytes = t.mbytes := by
  obtain rfl := exec_fin_next h
  obtain rfl := exec_fin_next h'
  show s'.keepcnt + s'.widecnt = s.keepcnt + s.widecnt
  rw [(hag.keep hk).1, hag.wide hw]

/-- Two runs of the program with the same inputs agree on every result. -/
theorem SameInputs.runPasses_program {l : Nat} {s s' t t' : State} (hin : SameInputs s s') (hs : s.SizeOk)
    (h : runPasses (progBody l ++ [.fin]) s = .next t) (h' : runPasses (progBody l ++ [.fin]) s' = .next t') :
    AgreeAfter (.fin :: (progBody l).reverse) t t' ∧ t'.mbytes = t.mbytes := by
  obtain ⟨u, hu, h⟩ := runPasses_append_next h
  obtain ⟨u', hu', h'⟩ := runPasses_append_next h'
  obtain ⟨m, hrli, hu⟩ := runPasses_cons_next hu
  obtain ⟨m', hrli', hu'⟩ := runPasses_cons_next hu'
  obtain ⟨v, hfin, h⟩ := runPasses_cons_next h
  obtain ⟨v', hfin', h'⟩ := runPasses_cons_next h'
  injection h with h
  injection h' with h'
  subst h h'
  have hag : AgreeAfter (progBody l).reverse u u' := by
    rw [progBody, List.reverse_cons]
    exact (hin.agreeAfter_rli hs hrli hrli').runPasses_next hu hu'
  exact ⟨hag.exec_next hfin hfin', hag.mbytes_fin (by simp [progBody]) (by simp [progBody]) hfin hfin'⟩

/-- Settles O49: neither run stops, RLI overwrites what the banks held, and every later pass computes from the inputs and
the front lanes what the other computes. -/
theorem earlierContentsDoNotMatter : Obligations.EarlierContentsDoNotMatter := by
  intro s s' h h' hn hmrn hmrw hsym
  have hin : SameInputs s s' := by
    refine ⟨hn, hmrn, hmrw, fun p hp => ?_, h'.pcZero.trans h.pcZero.symm, h'.curZero.trans h.curZero.symm⟩
    rw [State.symbols, State.symbols, hn] at hsym
    exact List.map_inj_left.1 hsym p (List.mem_range.2 hp)
  obtain ⟨t, ht⟩ := h.program_answers
  obtain ⟨t', ht'⟩ := h'.program_answers
  have hrun' := h'.run_eq_runPasses
  rw [hn] at ht' hrun'
  obtain ⟨hag, hmbytes⟩ := hin.runPasses_program (h.inv.sizeOk h.busy) ht ht'
  obtain ⟨hkeep, hrepeat⟩ := hag.keep (by simp [progBody])
  have hout : ∀ d, d < 2 * s.n.toNat → t'.outAt d = t.outAt d := fun d hd =>
    hag.out (by simp [progBody]) d (by rwa [State.lanes, runPasses_n ht])
  exact ⟨t, t', h.run_eq_runPasses.trans ht, hrun'.trans ht', hout, hkeep, hrepeat, hag.wide (by simp [progBody]),
    hmbytes, hag.inputs.pc, hag.inputs.cur⟩

end Sys2Proof.Machine
end

section
/-! PROOFS. The memory family: the documented lane order of a two-dimensional surface (20_memory.md R58). -/

namespace Sys2Proof.Machine

/-! ## The lane of a cell -/

theorem laneOf_zero_zero (width : Nat) : laneOf width 0 0 = 0 := by
  rw [laneOf, Nat.zero_mul]

theorem laneOf_lt {width height row col : Nat} (hrow : row < height) (hcol : col < width) :
    laneOf width row col < width * height := by
  rw [laneOf, Nat.mul_comm row, Nat.mul_comm width height]
  exact Nat.mul_add_lt_mul_of_lt_of_lt hrow hcol

theorem rowOf_laneOf {width col : Nat} (row : Nat) (hcol : col < width) : rowOf width (laneOf width row col) = row := by
  rw [rowOf, laneOf, Nat.mul_comm, Nat.mul_add_div (Nat.zero_lt_of_lt hcol), Nat.div_eq_of_lt hcol, Nat.add_zero]

theorem colOf_laneOf {width col : Nat} (row : Nat) (hcol : col < width) : colOf width (laneOf width row col) = col :=
  Nat.mul_add_mod_of_lt hcol

/-! ## The cell of a lane -/

theorem rowOf_lt {width height p : Nat} (hp : p < width * height) : rowOf width p < height :=
  Nat.div_lt_of_lt_mul hp

theorem colOf_lt {width : Nat} (hwidth : 1 ≤ width) (p : Nat) : colOf width p < width :=
  Nat.mod_lt p hwidth

theorem laneOf_rowOf_colOf (width p : Nat) : laneOf width (rowOf width p) (colOf width p) = p :=
  Nat.div_add_mod' p width

/-! ## The flip of the rows -/

theorem physicalRow_lt {height row : Nat} (hrow : row < height) : physicalRow height row < height := by
  unfold physicalRow
  omega

theorem physicalRow_physicalRow {height row : Nat} (hrow : row < height) :
    physicalRow height (physicalRow height row) = row :=
  Nat.sub_sub_self (Nat.le_sub_one_of_lt hrow)

/-- Settles O51: division by the width takes a lane apart into its row and column, since a column is below the width, and
the flip subtracts the row from the last row twice. -/
theorem laneOrderIsRowMajor : Obligations.LaneOrderIsRowMajor := by
  intro width height hwidth _
  refine ⟨fun row col hrow hcol => ?_, fun p hp => ?_, laneOf_zero_zero width, fun row hrow => ?_⟩
  · exact ⟨laneOf_lt hrow hcol, rowOf_laneOf row hcol, colOf_laneOf row hcol⟩
  · exact ⟨rowOf_lt hp, colOf_lt hwidth p, laneOf_rowOf_colOf width p⟩
  · exact ⟨physicalRow_lt hrow, physicalRow_physicalRow hrow⟩

end Sys2Proof.Machine
end

section
/-! PROOFS. The encoding family: the decoder against the opcode map (30_encoding.md R72 to R75), and the stepped words whose
offset is beyond the array or whose step is illegal (R73, R75). -/

namespace Sys2Proof.Machine

/-! ## The fields of a pass word -/

theorem opField_toNat (w : PassWord) : (opField w).toNat = w.toNat / 4096 := by
  have := w.isLt
  rw [opField, BitVec.extractLsb'_toNat, Nat.shiftRight_eq_div_pow, Nat.mod_eq_of_lt (by omega)]

theorem zeroFieldU_eq_zero_iff (w : PassWord) : zeroFieldU w = 0#12 ↔ w.toNat % 4096 = 0 := by
  rw [← BitVec.toNat_inj, zeroFieldU, BitVec.extractLsb'_toNat]
  rfl

theorem zeroFieldS_eq_zero_iff (w : PassWord) : zeroFieldS w = 0#7 ↔ w.toNat % 4096 / 32 = 0 := by
  rw [← BitVec.toNat_inj, zeroFieldS, BitVec.extractLsb'_toNat, Nat.shiftRight_eq_div_pow, BitVec.toNat_ofNat]
  omega

theorem legalStep_stepField_iff (w : PassWord) : legalStep (stepField w) = true ↔ w.toNat % 32 ≠ 31 := by
  rw [legalStep, bne_iff_ne, Ne, ← BitVec.toNat_inj, stepField, BitVec.extractLsb'_toNat]
  rfl

/-- A word whose format U ZERO field is clear is its OP alone. -/
theorem wordU_opField {w : PassWord} (h : zeroFieldU w = 0#12) : wordU (opField w) = w := by
  rw [wordU, ← h]
  exact (BitVec.extractLsb'_append_extractLsb'_eq_extractLsb' rfl).trans BitVec.extractLsb'_eq_self

/-- A word whose format S ZERO field is clear is its OP and STEP alone. -/
theorem wordS_opField_stepField {w : PassWord} (h : zeroFieldS w = 0#7) : wordS (opField w) (stepField w) = w := by
  rw [wordS, ← h]
  exact (congrArg (· ++ _) (BitVec.extractLsb'_append_extractLsb'_eq_extractLsb' rfl)).trans <|
    (BitVec.extractLsb'_append_extractLsb'_eq_extractLsb' rfl).trans BitVec.extractLsb'_eq_self

/-! ## The two formats -/

theorem decodeU_eq_instr_iff {w : PassWord} {i j : Instr} :
    decodeU w i = .instr j ↔ zeroFieldU w = 0#12 ∧ i = j := by
  unfold decodeU
  split <;> simp [*]

theorem decodeS_eq_instr_iff {w : PassWord} {mk : StepIx → Instr} {j : Instr} :
    decodeS w mk = .instr j ↔ zeroFieldS w = 0#7 ∧ legalStep (stepField w) = true ∧ mk (stepField w) = j := by
  unfold decodeS
  split
  · split <;> simp [*]
  · simp [*]

theorem decodeU_illegal_iff {w : PassWord} {i : Instr} :
    (∃ why, decodeU w i = .illegal why) ↔ w.toNat % 4096 ≠ 0 := by
  rw [Ne, ← zeroFieldU_eq_zero_iff, decodeU]
  split <;> simp [*]

theorem decodeS_illegal_iff {w : PassWord} {mk : StepIx → Instr} :
    (∃ why, decodeS w mk = .illegal why) ↔ w.toNat % 4096 / 32 ≠ 0 ∨ w.toNat % 32 = 31 := by
  rw [Ne, ← zeroFieldS_eq_zero_iff, ← not_ne_iff (b := 31), ← legalStep_stepField_iff, decodeS]
  split
  · split <;> simp [*]
  · simp [*]

/-- What the decoder reads from a word, by the kind of its OP: none of the opcode map's, an unstepped operation's, or a
stepped operation's (30_encoding.md R72, R74). -/
inductive DecodesBy (w : PassWord) : Decoded → Prop
  | reserved (hop : (opField w).toNat = 0 ∨ 12 ≤ (opField w).toNat) : DecodesBy w (.illegal .reservedOp)
  | unstepped {op : Nat} {i : Instr} (hop : (opField w).toNat = op) (hmap : op ∈ [1, 3, 5, 7, 8, 10, 11])
      (hencode : encode i = wordU (BitVec.ofNat 4 op)) (hlegal : i.wellFormed = true) : DecodesBy w (decodeU w i)
  | stepped {op : Nat} {mk : StepIx → Instr} (hop : (opField w).toNat = op) (hmap : op ∈ [2, 4, 6, 9])
      (hencode : ∀ k, encode (mk k) = wordS (BitVec.ofNat 4 op) k)
      (hlegal : ∀ k, (mk k).wellFormed = legalStep k) : DecodesBy w (decodeS w mk)

theorem decode_decodesBy (w : PassWord) : DecodesBy w (decode w) := by
  unfold decode
  split
  case h_1 h | h_3 h | h_5 h | h_7 h | h_8 h | h_10 h | h_11 h => exact .unstepped h (by decide) rfl rfl
  case h_2 h | h_4 h | h_6 h | h_9 h => exact .stepped h (by decide) (fun _ => rfl) (fun _ => rfl)
  case h_12 =>
    simp only [imp_false] at *
    exact .reserved (by omega)

/-! ## The statements about the decoder -/

/-- Settles O1 by `decode_encode`, which the program's words rest on. -/
theorem decodeInvertsEncode : Obligations.DecodeInvertsEncode := fun _ => decode_encode

/-- Settles O2: a word whose ZERO field is clear is the word of its OP and STEP. -/
theorem decodedWordIsTheEncoding : Obligations.DecodedWordIsTheEncoding := by
  intro w i h
  have hby := decode_decodesBy w
  rw [h] at hby
  generalize hd : Decoded.instr i = d at hby
  cases hby with
  | reserved => cases hd
  | unstepped hop hmap hencode hlegal =>
    obtain ⟨hzero, rfl⟩ := decodeU_eq_instr_iff.1 hd.symm
    rw [← hop, BitVec.ofNat_toNat, BitVec.setWidth_eq, wordU_opField hzero] at hencode
    exact ⟨hlegal, hencode⟩
  | stepped hop hmap hencode hlegal =>
    obtain ⟨hzero, hstep, rfl⟩ := decodeS_eq_instr_iff.1 hd.symm
    rw [hlegal, hencode, ← hop, BitVec.ofNat_toNat, BitVec.setWidth_eq, wordS_opField_stepField hzero]
    exact ⟨hstep, rfl⟩

/-- Settles O3: each word of the map is the encoding of its row's operation. -/
theorem opcodeMapDecodes : Obligations.OpcodeMapDecodes := by
  refine ⟨decode_encode (i := .rli) rfl, decode_encode (i := .sgk) rfl, decode_encode (i := .rdk) rfl,
    decode_encode (i := .sgw) rfl, decode_encode (i := .rdw) rfl, decode_encode (i := .pck) rfl,
    decode_encode (i := .fin) rfl, fun i hi => ?_⟩
  have hlegal : legalStep i = true := bne_iff_ne.2 hi
  obtain ⟨hrls, hscn, hcmp, hexp⟩ := base_add_eq_encode i.isLt
  rw [BitVec.ofNat_toNat, BitVec.ofNat_toNat, BitVec.setWidth_eq] at hrls hscn hcmp hexp
  rw [hrls, hscn, hcmp, hexp]
  exact ⟨decode_encode hlegal, decode_encode hlegal, decode_encode hlegal, decode_encode hlegal⟩

/-! ## Illegal words -/

theorem decode_illegal_iff (w : PassWord) :
    (∃ why, decode w = .illegal why) ↔
      (w.toNat / 4096 = 0 ∨ 12 ≤ w.toNat / 4096) ∨
      (w.toNat / 4096 ∈ [1, 3, 5, 7, 8, 10, 11] ∧ w.toNat % 4096 ≠ 0) ∨
      (w.toNat / 4096 ∈ [2, 4, 6, 9] ∧ (w.toNat % 4096 / 32 ≠ 0 ∨ w.toNat % 32 = 31)) := by
  rw [← opField_toNat]
  generalize decode w = d, decode_decodesBy w = hby
  cases hby with
  | reserved hop => exact iff_of_true ⟨_, rfl⟩ (.inl hop)
  | unstepped hop hmap =>
    have hother : ∀ op ∈ [1, 3, 5, 7, 8, 10, 11], ¬(op = 0 ∨ 12 ≤ op) ∧ op ∉ [2, 4, 6, 9] := by decide
    obtain ⟨hreserved, hstepped⟩ := hother _ hmap
    simp only [decodeU_illegal_iff, hop, hmap, hreserved, hstepped, false_or, or_false, true_and, false_and]
  | stepped hop hmap =>
    have hother : ∀ op ∈ [2, 4, 6, 9], ¬(op = 0 ∨ 12 ≤ op) ∧ op ∉ [1, 3, 5, 7, 8, 10, 11] := by decide
    obtain ⟨hreserved, hunstepped⟩ := hother _ hmap
    simp only [decodeS_illegal_iff, hop, hmap, hreserved, hunstepped, false_or, true_and, false_and]

theorem decode_of_mem_progOf {l : Nat} (hl : l ≤ 31) {w : PassWord} (hw : w ∈ progOf l) : ∃ i, decode w = .instr i := by
  rw [progOf_eq_map_encode hl] at hw
  obtain ⟨i, hi, rfl⟩ := List.mem_map.1 hw
  refine ⟨i, decode_encode ?_⟩
  rcases List.mem_append.1 hi with hbody | hfin
  · exact (progBody_wellFormed hl i hbody).1
  · rw [List.mem_singleton.1 hfin]
    rfl

theorem step_refused_of_supplied_illegal {s : State} {w : PassWord} {ws : List PassWord} {why : IllegalWord}
    (hbusy : s.busy = true) (hturn : s.nextEvent = .pass) (hw : s.supplied = w :: ws)
    (hillegal : decode w = .illegal why) : step s = .refused (.illegalPassWord w) := by
  rw [step_eq_event, hturn]
  simp only [State.event, State.seqTurn, hbusy, if_true, State.seqStep, State.fetchWord, hw, hillegal]

/-- Settles O4: each kind of OP refuses by its own check, the program is made of encodings, and the sequencer fetches a
supplied word first. -/
theorem illegalWordsAreRefused : Obligations.IllegalWordsAreRefused :=
  ⟨decode_illegal_iff, fun _ hl _ => decode_of_mem_progOf hl, fun _ _ _ _ => step_refused_of_supplied_illegal⟩

/-! ## Offsets beyond the array -/

/-- A lane from `N` up to `2N` after a source-domain pass is EMPTY. -/
theorem State.front_bufferNext_sourceLane_of_le (s : State) (f : Nat → Lane) {p : Nat} (hp : s.n.toNat ≤ p)
    (hlanes : p < 2 * s.n.toNat) : (s.bufferNext (s.sourceLane f)).front p = Lane.empty := by
  rw [s.front_bufferNext, if_pos (show p < s.lanes from hlanes), State.sourceLane, if_neg (Nat.not_lt.2 hp)]

/-- A stepped source-domain pass with a legal step passes its two guards when its lanes exist. -/
theorem guardStep_guardLanes {s : State} {i : StepIx} (hi : i ≠ 31#5) (hn : s.n.toNat ≤ s.nmax)
    (k : Host.Outcome State Fault Refusal) : guardStep i (s.guardLanes k) = k := by
  rw [guardStep_of_legal hi, s.guardLanes_of_le hn]

theorem State.rlsLane_of_lt_offset (s : State) {i : StepIx} {p : Nat} (hp : p < offset i) :
    s.rlsLane i p = s.front p :=
  if_neg fun h => Nat.not_le.2 hp h.1

theorem State.scnLane_of_lt_offset (s : State) {i : StepIx} {p : Nat} (hp : p < offset i) :
    s.scnLane i p = s.front p :=
  if_neg (Nat.not_le.2 hp)

theorem bitOf_eq_false_iff (v : Word) (i : StepIx) : bitOf v i = false ↔ v.toNat / 2 ^ i.toNat % 2 = 0 := by
  rw [bitOf, BitVec.getLsbD, Nat.testBit_eq_decide_div_mod_eq, decide_eq_false_iff_not]
  exact Nat.mod_two_ne_one

/-- With no lane at distance `2^i` to pull from, CMP keeps a content or drops it. -/
theorem State.cmpLane_of_le_offset (s : State) {i : StepIx} (hi : s.n.toNat ≤ offset i) (p : Nat) :
    s.cmpLane i p =
      if (s.front p).b ≠ noLane ∧ (dispC (s.front p)).toNat / 2 ^ i.toNat % 2 = 0 then s.front p else Lane.empty := by
  have hpull : ¬p + offset i < s.n.toNat := by omega
  simp only [State.cmpLane, hpull, decide_false, Bool.false_and, route, Bool.false_eq_true, if_false, Bool.and_eq_true,
    Lane.valid_iff, Bool.not_eq_true', bitOf_eq_false_iff]

/-- Settles O50: the left neighbour is below lane 0 for RLS and SCN, and the right one beyond lane `N - 1` for CMP. -/
theorem stepBeyondTheArrayMovesNothing : Obligations.StepBeyondTheArrayMovesNothing := by
  intro s i hi hn hoff
  refine ⟨⟨_, guardStep_guardLanes hi hn _, fun p => s.front_bufferNext_sourceLane_of_le _, fun p hp => ?_⟩,
    ⟨_, guardStep_guardLanes hi hn _, fun p => s.front_bufferNext_sourceLane_of_le _, fun p hp => ?_⟩,
    ⟨_, guardStep_guardLanes hi hn _, fun p => s.front_bufferNext_sourceLane_of_le _, fun p hp => ?_⟩⟩ <;>
    rw [s.front_bufferNext_sourceLane _ hp]
  · exact s.rlsLane_of_lt_offset (hp.trans_le hoff)
  · exact s.scnLane_of_lt_offset (hp.trans_le hoff)
  · rw [s.cmpLane_of_le_offset hoff]
    exact ⟨fun hv hbit => if_pos ⟨hv, hbit⟩, fun _ hbit => if_neg fun h => Nat.zero_ne_one (h.2.symm.trans hbit),
      fun hv => if_neg fun h => h.1 hv⟩

/-! ## Operations without a word -/

/-- An operation that no legal word stands for stops at the guard of its step, in every state. -/
theorem exec_of_not_wellFormed {i : Instr} (hi : i.wellFormed = false) (s : State) :
    exec i s = .refused .illegalStep := by
  cases i with
  | rli | sgk | rdk | sgw | rdw | pck | fin => cases hi
  | rls k | scn k | cmp k | exp k => exact if_neg (Bool.eq_false_iff.1 hi)

/-- Settles O22: STEP 31 stops at the guard the four stepped operations share. -/
theorem steppedPassRefusesStepThirtyOne : Obligations.SteppedPassRefusesStepThirtyOne :=
  fun s => ⟨exec_of_not_wellFormed rfl s, exec_of_not_wellFormed rfl s, exec_of_not_wellFormed rfl s,
    exec_of_not_wellFormed rfl s⟩

end Sys2Proof.Machine
end

section
/-! PROOFS. The scan family: one scan step (40_scan.md R90), the scalar readbacks (R91, R92), and the scan stage as
windowed sums whose windows double (R93, R95). -/

namespace Sys2Proof.Machine

/-! ## A run of a stage -/

theorem runPasses_append_of_next {is js : List Instr} {s t : State} (h : runPasses is s = .next t) :
    runPasses (is ++ js) s = runPasses js t := by
  induction is generalizing s with
  | nil => injection h with h; rw [List.nil_append, h]
  | cons i is ih =>
    obtain ⟨m, hm, h⟩ := runPasses_cons_next h
    rw [List.cons_append, runPasses_of_next hm, ih h]

theorem ascending_succ (mk : StepIx → Instr) (l : Nat) :
    ascending mk (l + 1) = ascending mk l ++ [mk (BitVec.ofNat 5 l)] := by
  rw [ascending, List.range_succ, List.map_append]
  rfl

/-- The induction over an ascending stage: what holds before it, and goes from each step index to the next, holds after
the last. -/
theorem runPasses_ascending {mk : StepIx → Instr} {l : Nat} {Holds : Nat → State → Prop} {s : State} (h0 : Holds 0 s)
    (hstep : ∀ i u, i < l → Holds i u → ∃ v, exec (mk (BitVec.ofNat 5 i)) u = .next v ∧ Holds (i + 1) v) :
    ∃ t, runPasses (ascending mk l) s = .next t ∧ Holds l t := by
  induction l with
  | zero => exact ⟨s, rfl, h0⟩
  | succ l ih =>
    obtain ⟨u, hu, hinv⟩ := ih fun i u hi => hstep i u (by omega)
    obtain ⟨v, hv, hinv⟩ := hstep l u (by omega) hinv
    exact ⟨v, by rw [ascending_succ, runPasses_append_of_next hu, runPasses_of_next hv]; rfl, hinv⟩

/-! ## One scan step -/

theorem exec_scn_of_legal {s : State} {i : StepIx} (hi : i ≠ 31#5) (hn : s.n.toNat ≤ s.nmax) :
    exec (.scn i) s = .next (s.bufferNext (s.sourceLane (s.scnLane i))) :=
  guardStep_guardLanes hi hn _

theorem State.scnLane_of_offset_le (s : State) {i : StepIx} {p : Nat} (hp : offset i ≤ p) :
    s.scnLane i p = ⟨(s.front p).a + (s.front (p - offset i)).a, (s.front p).b⟩ :=
  if_pos hp

theorem State.scnLane_b (s : State) (i : StepIx) (p : Nat) : (s.scnLane i p).b = (s.front p).b := by
  unfold State.scnLane
  split <;> rfl

/-- Settles O13: a lane has a left neighbour at distance `2^i` exactly when `2^i ≤ p`. -/
theorem scanStepAddsLeftNeighbour : Obligations.ScanStepAddsLeftNeighbour := by
  intro s i hi hn
  obtain ⟨-, -, -, -, -, -, -, hstepped⟩ := opcodeMapDecodes
  obtain ⟨-, hdecode, -⟩ := hstepped i hi
  refine ⟨hdecode, _, exec_scn_of_legal hi hn, s.bufferFrame_bufferNext _, fun p hp => ?_,
    fun p => s.front_bufferNext_sourceLane_of_le _⟩
  rw [s.front_bufferNext_sourceLane _ hp]
  refine ⟨fun l hl => ?_, s.scnLane_of_lt_offset⟩
  have hneighbour : p - offset i = l := Nat.sub_eq_of_eq_add hl.symm
  rw [s.scnLane_of_offset_le (hl ▸ Nat.le_add_left _ _), hneighbour]

/-! ## The scalar readbacks -/

theorem State.readback_of_lane {s : State} (hpos : 1 ≤ s.n.toNat) (hle : s.n.toNat ≤ 2 * s.nmax)
    (k : Word → State → State) : s.readback k = .next (k (s.front (s.n.toNat - 1)).a s) := by
  have hn : s.n ≠ 0#32 := by rintro hn; simp [hn] at hpos
  rw [State.readback, if_neg hn, if_pos (by omega)]

theorem State.readback_of_no_lane {s : State} (hn : s.n = 0#32) (k : Word → State → State) :
    s.readback k = .next (k (Config.freeReadback s.freeIx) s.nextFree) :=
  if_pos hn

/-- Settles O14: lane `N - 1` exists, and RDK has its frame. -/
theorem readbackOfKeepTotal : Obligations.ReadbackOfKeepTotal := by
  refine ⟨decode_encode (i := .rdk) rfl, fun s hpos hle => ?_⟩
  have h : exec .rdk s = .next _ := State.readback_of_lane hpos hle fun v t => (t.setKeepCounts v (t.n - v)).advancePc
  obtain ⟨hframe, hflags, hout, hwide, hmbytes⟩ := exec_rdk_frame h
  exact ⟨_, h, rfl, rfl, hframe, hflags, hout, hwide, hmbytes, rfl⟩

/-- Settles O15: lane `N - 1` exists, and RDW has its frame. -/
theorem readbackOfWideTotal : Obligations.ReadbackOfWideTotal := by
  refine ⟨decode_encode (i := .rdw) rfl, fun s hpos hle => ?_⟩
  have h : exec .rdw s = .next _ := State.readback_of_lane hpos hle fun v t => (t.setWideCount v).advancePc
  obtain ⟨hframe, hflags, hout, hkeep, hrep, hmbytes⟩ := exec_rdw_frame h
  exact ⟨_, h, rfl, hframe, hflags, hout, hkeep, hrep, hmbytes, rfl⟩

/-- Settles O16: the free value is latched as a lane's would be, so the two frames hold of it too. -/
theorem readbackWithoutLanesStillRuns : Obligations.ReadbackWithoutLanesStillRuns := by
  intro s hn
  have hrdk : exec .rdk s = .next _ :=
    State.readback_of_no_lane hn fun v t => (t.setKeepCounts v (t.n - v)).advancePc
  have hrdw : exec .rdw s = .next _ := State.readback_of_no_lane hn fun v t => (t.setWideCount v).advancePc
  exact ⟨⟨_, hrdk, rfl, exec_rdk_frame hrdk⟩, _, hrdw, exec_rdw_frame hrdw⟩

/-! ## Sums of the front lanes -/

/-- The sum of the `a` components of the first `k` front lanes (40_scan.md R93, modulo 2^32 as R94 says). -/
def State.sumBelow (s : State) (k : Nat) : Word := ((List.range k).map fun q => (s.front q).a).foldl (· + ·) 0#32

@[simp] theorem State.sumBelow_zero (s : State) : s.sumBelow 0 = 0#32 := rfl

theorem State.sumBelow_succ (s : State) (k : Nat) : s.sumBelow (k + 1) = s.sumBelow k + (s.front k).a := by
  simp only [State.sumBelow, List.range_succ, List.map_append, List.map_cons, List.map_nil, List.foldl_append,
    List.foldl_cons, List.foldl_nil]

theorem State.sumBelow_eq_zero {s : State} {k : Nat} (h : ∀ p, p < k → (s.front p).a = 0#32) :
    s.sumBelow k = 0#32 := by
  induction k with
  | zero => rfl
  | succ k ih => rw [s.sumBelow_succ, ih fun p hp => h p (by omega), h k (by omega), BitVec.add_zero]

/-- The sum of the `a` components of the `w` front lanes that end at lane `p`, or of all up to `p` where they are fewer. -/
def State.windowSum (s : State) (w p : Nat) : Word := s.sumBelow (p + 1) - s.sumBelow (p + 1 - w)

theorem State.windowSum_one (s : State) (p : Nat) : s.windowSum 1 p = (s.front p).a := by
  rw [State.windowSum, Nat.add_sub_cancel, s.sumBelow_succ, add_sub_cancel_left]

theorem State.windowSum_of_lt (s : State) {w p : Nat} (h : p < w) : s.windowSum w p = s.sumBelow (p + 1) := by
  rw [State.windowSum, Nat.sub_eq_zero_of_le h, s.sumBelow_zero, BitVec.sub_zero]

/-- A window and the one that ends where it begins make one window. -/
theorem State.windowSum_add (s : State) {v p : Nat} (w : Nat) (h : v ≤ p) :
    s.windowSum v p + s.windowSum w (p - v) = s.windowSum (v + w) p := by
  have hend : p - v + 1 = p + 1 - v := by omega
  rw [State.windowSum, State.windowSum, State.windowSum, hend, Nat.sub_sub, sub_add_sub_cancel]

/-! ## The scan stage -/

/-- The state `u` after the scan steps below `i` from `s`: each lane below `N` holds the sum of the window of `2^i` lanes
that ends at it, and its own `b`. -/
structure Scanned (s : State) (i : Nat) (u : State) : Prop where
  n    : u.n = s.n
  nmax : u.nmax = s.nmax
  a    : ∀ p, p < s.n.toNat → (u.front p).a = s.windowSum (2 ^ i) p
  b    : ∀ p, p < s.n.toNat → (u.front p).b = (s.front p).b

theorem Scanned.start (s : State) : Scanned s 0 s where
  n       := rfl
  nmax    := rfl
  a p _   := (s.windowSum_one p).symm
  b _ _   := rfl

theorem offset_ofNat {i : Nat} (hi : i < 32) : offset (BitVec.ofNat 5 i) = 2 ^ i := by
  rw [offset, BitVec.toNat_ofNat, Nat.mod_eq_of_lt hi]

/-- A scan step doubles the windows: the left neighbour at distance `2^i` holds the window before the lane's own, and a
lane without one has the sum from lane 0 already. -/
theorem Scanned.scnLane_a {s u : State} {i p : Nat} (h : Scanned s i u) (hi : i < 32) (hp : p < s.n.toNat) :
    (u.scnLane (BitVec.ofNat 5 i) p).a = s.windowSum (2 ^ (i + 1)) p := by
  have hoff := offset_ofNat hi
  rw [Nat.pow_succ, Nat.mul_two]
  rcases Nat.lt_or_ge p (2 ^ i) with hlt | hge
  · rw [u.scnLane_of_lt_offset (hoff.symm ▸ hlt), h.a p hp, s.windowSum_of_lt hlt, s.windowSum_of_lt (by omega)]
  · rw [u.scnLane_of_offset_le (hoff.symm ▸ hge), hoff, h.a p hp, h.a (p - 2 ^ i) (by omega), s.windowSum_add _ hge]

theorem Scanned.exec_scn {s u : State} {i : Nat} (hs : s.SizeOk) (h : Scanned s i u) (hi : i < 31) :
    ∃ v, exec (.scn (BitVec.ofNat 5 i)) u = .next v ∧ Scanned s (i + 1) v := by
  have hlegal : BitVec.ofNat 5 i ≠ 31#5 := by
    rw [ne_eq, ← BitVec.toNat_inj, BitVec.toNat_ofNat, BitVec.toNat_ofNat]
    omega
  refine ⟨_, exec_scn_of_legal hlegal (by rw [h.n, h.nmax]; exact hs.2.1), h.n, h.nmax, fun p hp => ?_, fun p hp => ?_⟩
  · rw [u.front_bufferNext_sourceLane _ (h.n ▸ hp), h.scnLane_a (by omega) hp]
  · rw [u.front_bufferNext_sourceLane _ (h.n ▸ hp), u.scnLane_b, h.b p hp]

/-- The scan stage runs to its end, where the windows have doubled `LOGN` times. -/
theorem State.SizeOk.runPasses_scn {s : State} (hs : s.SizeOk) :
    ∃ t, runPasses (ascending .scn (clog2 s.n.toNat)) s = .next t ∧ Scanned s (clog2 s.n.toNat) t := by
  have hl := hs.clog2_n_le
  exact runPasses_ascending (.start s) fun i u hi hu => hu.exec_scn hs (by omega)

/-- A window of `2^LOGN` lanes reaches lane 0 from every lane below `N`. -/
theorem Scanned.a_eq_sumBelow {s t : State} (h : Scanned s (clog2 s.n.toNat) t) {p : Nat} (hp : p < s.n.toNat) :
    (t.front p).a = s.sumBelow (p + 1) := by
  rw [h.a p hp, s.windowSum_of_lt (hp.trans_le (le_two_pow_clog2 _))]

/-- Settles O39: the windows double with every step, and the last ones reach lane 0. -/
theorem scanStageGivesPrefixSums : Obligations.ScanStageGivesPrefixSums := by
  intro s hpos hle hmax
  obtain ⟨t, ht, h⟩ := State.SizeOk.runPasses_scn ⟨hpos, hle, hmax⟩
  exact ⟨t, ht, fun p hp => ⟨h.a_eq_sumBelow hp, h.b p hp⟩⟩

/-- Settles O40: every sum of zeros is 0, the last of which RDK reads back. -/
theorem scanOfZeroFlagsIsZero : Obligations.ScanOfZeroFlagsIsZero := by
  intro s hpos hle hmax hzero
  obtain ⟨t, ht, h⟩ := State.SizeOk.runPasses_scn ⟨hpos, hle, hmax⟩
  have hlane : ∀ p, p < s.n.toNat → (t.front p).a = 0#32 := fun p hp => by
    rw [h.a_eq_sumBelow hp, State.sumBelow_eq_zero fun q hq => hzero q (by omega)]
  obtain ⟨u, hu, hkeep, -⟩ := readbackOfKeepTotal.2 t (by rwa [h.n]) (by rw [h.n, h.nmax]; omega)
  refine ⟨t, u, ht, hlane, hu, ?_⟩
  rw [hkeep, h.n, hlane _ (by omega)]

end Sys2Proof.Machine
end

section
/-! PROOFS. The run-length family: RLI (41_runlength.md R100), one RLS step (R101), and the detector stage, whose steps
double the length up to which a run is measured (R102). -/

namespace Sys2Proof.Machine

/-! ## RLI -/

theorem exec_rli_of_le {s : State} (hn : s.n.toNat ≤ s.nmax) :
    exec .rli s = .next (s.bufferNext (s.sourceLane fun _ => ⟨1#32, 0#32⟩)) :=
  s.guardLanes_of_le hn _

/-- Settles O9: RLI's lane function is constant, so no lane of either bank matters. -/
theorem initialisePassSetsRunLengthOne : Obligations.InitialisePassSetsRunLengthOne :=
  ⟨decode_encode (i := .rli) rfl, fun s hn => ⟨_, exec_rli_of_le hn, s.bufferFrame_bufferNext _,
    fun _ => s.front_bufferNext_sourceLane _, fun _ => s.front_bufferNext_sourceLane_of_le _⟩⟩

/-! ## One RLS step -/

theorem exec_rls_of_legal {s : State} {i : StepIx} (hi : i ≠ 31#5) (hn : s.n.toNat ≤ s.nmax) :
    exec (.rls i) s = .next (s.bufferNext (s.sourceLane (s.rlsLane i))) :=
  guardStep_guardLanes hi hn _

/-- A lane grown to `2^i` merges with a left neighbour `l` of its symbol. -/
theorem State.rlsLane_of_neighbour (s : State) {i : StepIx} {l p : Nat} (hl : l + offset i = p)
    (hsym : s.symAt l = s.symAt p) (ha : (s.front p).a = BitVec.ofNat 32 (offset i)) :
    s.rlsLane i p = ⟨(s.front p).a + (s.front l).a, (s.front p).b⟩ := by
  obtain rfl : p - offset i = l := Nat.sub_eq_of_eq_add hl.symm
  exact if_pos ⟨hl ▸ Nat.le_add_left _ _, hsym, ha⟩

/-- A lane with no such neighbour is copied. -/
theorem State.rlsLane_of_no_neighbour (s : State) {i : StepIx} {p : Nat}
    (h : ∀ l, l + offset i = p → s.symAt l ≠ s.symAt p ∨ (s.front p).a ≠ BitVec.ofNat 32 (offset i)) :
    s.rlsLane i p = s.front p := by
  refine if_neg fun ⟨hoff, hsym, ha⟩ => ?_
  exact (h (p - offset i) (Nat.sub_add_cancel hoff)).elim (· hsym) (· ha)

/-- The word RLS compares with is the offset as a signed number: a legal one is below `2^31`. -/
theorem eq_ofNat_offset_iff {i : StepIx} (hi : i ≠ 31#5) (v : Word) :
    v = BitVec.ofNat 32 (offset i) ↔ v.toInt = 2 ^ i.toNat := by
  have hoffset : (BitVec.ofNat 32 (offset i)).toInt = 2 ^ i.toNat := by revert i; decide
  rw [← hoffset, BitVec.toInt_inj]

/-- Settles O10: the lane function's three conditions are those of R101, with the neighbour named. -/
theorem runLengthStepMergesGrownRuns : Obligations.RunLengthStepMergesGrownRuns := by
  intro s i hi hn
  obtain ⟨-, -, -, -, -, -, -, hstepped⟩ := opcodeMapDecodes
  obtain ⟨hdecode, -⟩ := hstepped i hi
  refine ⟨hdecode, _, exec_rls_of_legal hi hn, s.bufferFrame_bufferNext _, fun p hp => ?_,
    fun p => s.front_bufferNext_sourceLane_of_le _⟩
  rw [s.front_bufferNext_sourceLane _ hp]
  simp only [ne_eq, ← eq_ofNat_offset_iff hi]
  exact ⟨fun _ => s.rlsLane_of_neighbour, s.rlsLane_of_no_neighbour⟩

/-! ## Lanes of a run -/

/-- An earlier lane of the run is in it. -/
theorem State.InRunFrom.of_le {s : State} {st p q : Nat} (h : s.InRunFrom st p) (hst : st ≤ q) (hq : q ≤ p) :
    s.InRunFrom st q := by
  obtain ⟨-, hsame, hstart⟩ := h
  refine ⟨hst, fun r hr hrq => ?_, hstart⟩
  rw [hsame r hr (hrq.trans hq), hsame q hst hq]

/-- The lane just before the run holds another symbol. -/
theorem State.InRunFrom.symAt_before_ne {s : State} {st p l : Nat} (h : s.InRunFrom st p) (hl : l + 1 = st) :
    s.symAt l ≠ s.symAt p := by
  subst hl
  obtain ⟨hst, hsame, hstart⟩ := h
  rw [← hsame _ le_rfl hst]
  exact hstart.resolve_left (Nat.succ_ne_zero l)

/-! ## The detector stage -/

theorem ofNat_ne_ofNat_of_lt {w m k : Nat} (hm : m < k) (hk : k < 2 ^ w) : BitVec.ofNat w m ≠ BitVec.ofNat w k := by
  rw [ne_eq, ← BitVec.toNat_inj, BitVec.toNat_ofNat, BitVec.toNat_ofNat, Nat.mod_eq_of_lt (hm.trans hk),
    Nat.mod_eq_of_lt hk]
  exact hm.ne

/-- The state `u` after RLI and the RLS steps below `i`, where `s` holds the inputs: each lane of a run holds its offset
in the run, measured up to `2^i` (41_runlength.md R102). -/
structure Detected (s : State) (i : Nat) (u : State) : Prop where
  n    : u.n = s.n
  nmax : u.nmax = s.nmax
  sym  : ∀ p, u.symAt p = s.symAt p
  a    : ∀ p st, p < s.n.toNat → s.InRunFrom st p → (u.front p).a = BitVec.ofNat 32 (min (p - st + 1) (2 ^ i))

/-- After RLI every offset is measured up to 1. -/
theorem Detected.exec_rli {s : State} (hn : s.n.toNat ≤ s.nmax) :
    ∃ u, exec .rli s = .next u ∧ Detected s 0 u := by
  refine ⟨_, exec_rli_of_le hn, rfl, rfl, fun _ => rfl, fun p st hp _ => ?_⟩
  rw [s.front_bufferNext_sourceLane _ hp, Nat.min_eq_right (by simp)]
  rfl

/-- A lane no further than `2^i` into its run does not merge: its neighbour at distance `2^i` is the lane just before
the run, or the lane has not grown to `2^i`. -/
theorem Detected.rlsLane_of_near {s u : State} {i p st : Nat} (h : Detected s i u) (hi : i < 31) (hp : p < s.n.toNat)
    (hrun : s.InRunFrom st p) (hnear : p - st + 1 ≤ 2 ^ i) : u.rlsLane (BitVec.ofNat 5 i) p = u.front p := by
  refine u.rlsLane_of_no_neighbour fun l hl => ?_
  rw [offset_ofNat (by omega)] at hl ⊢
  rw [h.sym, h.sym, h.a p st hp hrun, Nat.min_eq_left hnear]
  rcases hnear.eq_or_lt with hgrown | hshort
  · have hst : st ≤ p := hrun.1
    exact .inl (hrun.symAt_before_ne (by omega))
  · exact .inr (ofNat_ne_ofNat_of_lt hshort (Nat.pow_lt_pow_right (by decide) (by omega)))

/-- A lane further than `2^i` into its run merges: its neighbour at distance `2^i` is in the same run. -/
theorem Detected.rlsLane_of_far {s u : State} {i p st : Nat} (h : Detected s i u) (hi : i < 31) (hp : p < s.n.toNat)
    (hrun : s.InRunFrom st p) (hfar : 2 ^ i < p - st + 1) :
    u.rlsLane (BitVec.ofNat 5 i) p = ⟨(u.front p).a + (u.front (p - 2 ^ i)).a, (u.front p).b⟩ := by
  have hoff : offset (BitVec.ofNat 5 i) = 2 ^ i := offset_ofNat (by omega)
  have ⟨_, hsame, _⟩ := hrun
  refine u.rlsLane_of_neighbour (by omega) ?_ ?_
  · rw [h.sym, h.sym, hsame _ (by omega) (Nat.sub_le _ _)]
  · rw [h.a p st hp hrun, hoff, Nat.min_eq_right hfar.le]

/-- An RLS step doubles the length up to which offsets are measured. -/
theorem Detected.rlsLane_a {s u : State} {i p st : Nat} (h : Detected s i u) (hi : i < 31) (hp : p < s.n.toNat)
    (hrun : s.InRunFrom st p) :
    (u.rlsLane (BitVec.ofNat 5 i) p).a = BitVec.ofNat 32 (min (p - st + 1) (2 ^ (i + 1))) := by
  have ha := h.a p st hp hrun
  have hle : st ≤ p := hrun.1
  rw [Nat.pow_succ, Nat.mul_two]
  rcases Nat.lt_or_ge (2 ^ i) (p - st + 1) with hfar | hnear
  · have hst : st ≤ p - 2 ^ i := by omega
    have hleft := h.a (p - 2 ^ i) st ((Nat.sub_le _ _).trans_lt hp) (hrun.of_le hst (Nat.sub_le _ _))
    rw [h.rlsLane_of_far hi hp hrun hfar, ha, hleft, BitVec.ofNat_add_ofNat]
    exact congrArg (BitVec.ofNat 32) (by omega)
  · rw [h.rlsLane_of_near hi hp hrun hnear, ha]
    exact congrArg (BitVec.ofNat 32) (by omega)

theorem Detected.exec_rls {s u : State} {i : Nat} (hn : s.n.toNat ≤ s.nmax) (h : Detected s i u) (hi : i < 31) :
    ∃ v, exec (.rls (BitVec.ofNat 5 i)) u = .next v ∧ Detected s (i + 1) v := by
  have hlegal : BitVec.ofNat 5 i ≠ 31#5 := ofNat_ne_ofNat_of_lt hi (by decide)
  refine ⟨_, exec_rls_of_legal hlegal (by rwa [h.n, h.nmax]), h.n, h.nmax, h.sym, fun p st hp hrun => ?_⟩
  rw [u.front_bufferNext_sourceLane _ (h.n ▸ hp), h.rlsLane_a hi hp hrun]

/-- The detector stage runs to its end, where runs are measured up to `2^LOGN`. -/
theorem State.SizeOk.runPasses_detector {s : State} (hs : s.SizeOk) :
    ∃ t, runPasses (.rli :: ascending .rls (clog2 s.n.toNat)) s = .next t ∧ Detected s (clog2 s.n.toNat) t := by
  have hl := hs.clog2_n_le
  obtain ⟨u, hu, hinit⟩ := Detected.exec_rli hs.2.1
  obtain ⟨t, ht, hend⟩ := runPasses_ascending (l := clog2 s.n.toNat) hinit
    fun i v hi (hv : Detected s i v) => hv.exec_rls hs.2.1 (by omega)
  exact ⟨t, (runPasses_of_next hu).trans ht, hend⟩

/-- Settles O41: runs are measured twice as far with every step, and `2^LOGN` is at least every offset. -/
theorem detectorStageGivesRunOffsets : Obligations.DetectorStageGivesRunOffsets := by
  intro s hpos hle hmax
  obtain ⟨t, ht, h⟩ := State.SizeOk.runPasses_detector ⟨hpos, hle, hmax⟩
  refine ⟨t, ht, fun p st hp hrun => ?_⟩
  have hlog := le_two_pow_clog2 s.n.toNat
  rw [h.a p st hp hrun, Nat.min_eq_left (by omega)]

end Sys2Proof.Machine
end

section
/-! PROOFS. The segmenter family: the chunk-start flags of SGK (42_segmenter.md R110, R111), and the width flags of SGW
with the refusal of a gather that is no symbol of the encode (R112, R113). -/

namespace Sys2Proof.Machine

/-! ## Symbol classes (00_scope.md R8) -/

theorem isWide_iff (x : Symbol) : isWide x = true ↔ x = 0#4 ∨ x = 15#4 := by
  rw [isWide, Bool.or_eq_true, beq_iff_eq, beq_iff_eq]

theorem isWide_of_ne {x : Symbol} (h₀ : x ≠ 0#4) (h₁₅ : x ≠ 15#4) : isWide x = false :=
  Bool.eq_false_iff.2 fun hw => ((isWide_iff x).1 hw).elim h₀ h₁₅

/-- A word that is `MRW` for the wide symbols and `MRN` for the others is the maximum run. -/
theorem State.maxRun_eq {s : State} {x : Symbol} {m : Word} (hwide : x = 0#4 ∨ x = 15#4 → m = s.mrw)
    (hnarrow : x ≠ 0#4 → x ≠ 15#4 → m = s.mrn) : s.maxRun x = m := by
  by_cases hx : x = 0#4 ∨ x = 15#4
  · rw [hwide hx]
    exact if_pos ((isWide_iff x).2 hx)
  · obtain ⟨h₀, h₁₅⟩ := not_or.1 hx
    rw [State.maxRun, isWide_of_ne h₀ h₁₅, hnarrow h₀ h₁₅]
    rfl

theorem State.maxRun_ne_zero {s : State} (hmrn : s.mrn ≠ 0#32) (hmrw : s.mrw ≠ 0#32) (x : Symbol) :
    s.maxRun x ≠ 0#32 := by
  unfold State.maxRun
  split
  · exact hmrw
  · exact hmrn

/-! ## SGK with a modulus of at least 1 -/

/-- The non-negative remainder of a signed word is 0 at the multiples of the modulus, negative ones too. -/
theorem remainder_eq_zero_iff {v m : Word} (hm : m ≠ 0#32) : remainder v m = 0 ↔ (m.toNat : Int) ∣ v.toInt := by
  rw [remainder, if_neg hm]
  exact Int.dvd_iff_emod_eq_zero.symm

theorem State.sgkLane_of_dvd {s : State} {p : Nat} (hm : s.maxRun (s.symAt p) ≠ 0#32)
    (h : ((s.maxRun (s.symAt p)).toNat : Int) ∣ ((s.front p).a - 1#32).toInt) :
    s.sgkLane p = ⟨1#32, BitVec.ofNat 32 p⟩ :=
  if_pos ((remainder_eq_zero_iff hm).2 h)

theorem State.sgkLane_of_not_dvd {s : State} {p : Nat} (hm : s.maxRun (s.symAt p) ≠ 0#32)
    (h : ¬((s.maxRun (s.symAt p)).toNat : Int) ∣ ((s.front p).a - 1#32).toInt) : s.sgkLane p = Lane.empty :=
  if_neg fun hrem => h ((remainder_eq_zero_iff hm).1 hrem)

/-- Settles O11: a vanishing remainder is divisibility, and the word `m` is the lane's maximum run. -/
theorem segmentPassMarksChunkStarts : Obligations.SegmentPassMarksChunkStarts := by
  refine ⟨decode_encode (i := .sgk) rfl, fun s hn => ⟨_, exec_sgk_of_le hn, s.bufferFrame_bufferNext _,
    fun p hp m hwide hnarrow hm => ?_, fun p => s.front_bufferNext_sourceLane_of_le _⟩⟩
  obtain rfl : s.maxRun (s.symAt p) = m := State.maxRun_eq hwide hnarrow
  rw [s.front_bufferNext_sourceLane _ hp, ← dvd_iff_exists_eq_mul_left]
  exact ⟨State.sgkLane_of_dvd hm, State.sgkLane_of_not_dvd hm⟩

/-! ## SGK after the detector -/

/-- One less than the run length `k + 1`, as a signed number, is `k`. -/
theorem toInt_ofNat_succ_sub_one {k : Nat} (hk : k < 2 ^ 29) : (BitVec.ofNat 32 (k + 1) - 1#32).toInt = k := by
  have hnat : (BitVec.ofNat 32 k).toNat = k := Nat.mod_eq_of_lt (by omega)
  rw [← BitVec.ofNat_add_ofNat, BitVec.add_sub_cancel, BitVec.toInt_eq_toNat_of_lt (by omega), hnat]

/-- A lane with `k` lanes of its run to its left is marked exactly when its maximum run divides `k` (R111). -/
theorem State.sgkLane_of_runLength {s : State} {p k : Nat} (hm : s.maxRun (s.symAt p) ≠ 0#32) (hk : k < 2 ^ 29)
    (ha : (s.front p).a = BitVec.ofNat 32 (k + 1)) :
    (k % (s.maxRun (s.symAt p)).toNat = 0 → s.sgkLane p = ⟨1#32, BitVec.ofNat 32 p⟩) ∧
    (k % (s.maxRun (s.symAt p)).toNat ≠ 0 → s.sgkLane p = Lane.empty) := by
  have hsigned : ((s.front p).a - 1#32).toInt = k := by rw [ha, toInt_ofNat_succ_sub_one hk]
  rw [ne_eq, ← Nat.dvd_iff_mod_eq_zero, ← Int.natCast_dvd_natCast, ← hsigned]
  exact ⟨State.sgkLane_of_dvd hm, State.sgkLane_of_not_dvd hm⟩

/-- No lane is left of lane 0, so a run starts there. -/
theorem State.inRunFrom_zero (s : State) : s.InRunFrom 0 0 :=
  ⟨le_rfl, fun _ _ hq => by rw [Nat.le_zero.1 hq], .inl rfl⟩

/-- Settles O42: lane `p` has `p - st` lanes of its run to its left, and lane 0 starts a run. -/
theorem segmenterMarksEveryMaximumRun : Obligations.SegmenterMarksEveryMaximumRun := by
  intro s hpos hn hmax hmrn hmrw hoffset
  have hlane := fun p st (hp : p < s.n.toNat) (hrun : s.InRunFrom st p) =>
    State.sgkLane_of_runLength (State.maxRun_ne_zero hmrn hmrw _) (by omega) (hoffset p st hp hrun)
  refine ⟨_, exec_sgk_of_le hn, ?_, fun p st hp hrun => ?_⟩
  · rw [s.front_bufferNext_sourceLane _ hpos]
    exact (hlane 0 0 hpos s.inRunFrom_zero).1 (Nat.zero_mod _)
  · rw [s.front_bufferNext_sourceLane _ hp]
    exact hlane p st hp hrun

/-! ## SGW -/

theorem State.gatherOk_iff_gathersInRange (s : State) (bound : Nat) :
    s.gatherOk bound = true ↔ s.GathersInRange bound :=
  s.gatherOk_iff bound

theorem exec_sgw_of_gathersInRange {s : State} (hn : s.n.toNat ≤ s.nmax) (hg : s.GathersInRange s.n.toNat) :
    exec .sgw s = .next (s.bufferNext (s.sourceLane s.sgwLane)) :=
  s.guardGather_of_ok hn ((s.gatherOk_iff_gathersInRange _).2 hg) _

theorem State.sgwLane_of_empty {s : State} {p : Nat} (h : (s.front p).b = noLane) : s.sgwLane p = Lane.empty :=
  if_neg fun hv => (Lane.valid_iff _).1 hv h

theorem State.sgwLane_of_wide {s : State} {p : Nat} (h : (s.front p).b ≠ noLane)
    (hw : isWide (s.symOf (s.front p).b) = true) : s.sgwLane p = ⟨1#32, (s.front p).b⟩ := by
  rw [State.sgwLane, if_pos ((Lane.valid_iff _).2 h), if_pos hw]

theorem State.sgwLane_of_narrow {s : State} {p : Nat} (h : (s.front p).b ≠ noLane)
    (hw : isWide (s.symOf (s.front p).b) = false) : s.sgwLane p = ⟨0#32, (s.front p).b⟩ := by
  rw [State.sgwLane, if_pos ((Lane.valid_iff _).2 h), if_neg (Bool.eq_false_iff.1 hw)]

/-- Settles O18: the three cases of SGW's lane function, each by the class of the slot's own symbol. -/
theorem widthPassMarksOwnSymbol : Obligations.WidthPassMarksOwnSymbol := by
  refine ⟨decode_encode (i := .sgw) rfl, fun s hn hg => ⟨_, exec_sgw_of_gathersInRange hn hg,
    s.bufferFrame_bufferNext _, fun p hp hb => ?_, fun p hp hb => ?_, fun p => s.front_bufferNext_sourceLane_of_le _⟩⟩
  · rw [s.front_bufferNext_sourceLane _ hp]
    exact ⟨fun hw => State.sgwLane_of_wide hb ((isWide_iff _).2 hw),
      fun h₀ h₁₅ => State.sgwLane_of_narrow hb (isWide_of_ne h₀ h₁₅)⟩
  · rw [s.front_bufferNext_sourceLane _ hp]
    exact State.sgwLane_of_empty hb

/-! ## Gathers outside the symbols -/

/-- A pass whose lanes exist is refused when a gather is out of range, whatever it computes. -/
theorem State.guardGather_of_not_gathersInRange {s : State} {bound : Nat} (hn : s.n.toNat ≤ s.nmax)
    (hg : ¬s.GathersInRange bound) (k : Host.Outcome State Fault Refusal) :
    s.guardGather bound k = .refused .symIndexOutOfRange := by
  rw [State.guardGather, s.guardLanes_of_le hn, if_neg fun hok => hg ((s.gatherOk_iff_gathersInRange _).1 hok)]

/-- Settles O24: SGW, EXP and PCK share the guard of their gathers; EXP checks its step before it. -/
theorem gatherOutsideTheSymbolsIsRefused : Obligations.GatherOutsideTheSymbolsIsRefused := fun _ hn =>
  ⟨fun hg => State.guardGather_of_not_gathersInRange hn hg _, fun hg =>
    ⟨fun _ hi => (guardStep_of_legal hi _).trans (State.guardGather_of_not_gathersInRange hn hg _),
      State.guardGather_of_not_gathersInRange hn hg _⟩⟩

end Sys2Proof.Machine
end

section
/-! PROOFS. The compactor family: one CMP step (43_compactor.md R120), and the compaction stage as kept contents that
each travel the low bits of their displacement and never meet (R121, R122). -/

namespace Sys2Proof.Machine

/-! ## One CMP step -/

/-- A content is due to move at step `i`: it is valid and its displacement has bit `i` set. -/
abbrev Lane.Leaves (c : Lane) (i : StepIx) : Prop := c.b ≠ noLane ∧ bitOf (dispC c) i = true

theorem State.cmpLane_eq (s : State) (i : StepIx) (x : Nat) :
    s.cmpLane i x =
      if x + offset i < s.n.toNat ∧ (s.front (x + offset i)).Leaves i then s.front (x + offset i)
      else if (s.front x).b ≠ noLane ∧ ¬(s.front x).Leaves i then s.front x
      else Lane.empty := by
  have hstays : (s.front x).b ≠ noLane ∧ ¬(s.front x).Leaves i ↔
      (s.front x).b ≠ noLane ∧ bitOf (dispC (s.front x)) i = false := by
    rw [not_and, Bool.not_eq_true]
    exact and_congr_right fun hv => forall_prop_of_true hv
  simp only [State.cmpLane, route, Bool.and_eq_true, decide_eq_true_eq, Bool.not_eq_true', Lane.valid_iff, hstays]

theorem exec_cmp_of_legal {s : State} {i : StepIx} (hi : i ≠ 31#5) (hn : s.n.toNat ≤ s.nmax) :
    exec (.cmp i) s = .next (s.bufferNext (s.sourceLane (s.cmpLane i))) :=
  guardStep_guardLanes hi hn _

theorem bitOf_eq_true_iff (v : Word) (i : StepIx) : bitOf v i = true ↔ v.toNat / 2 ^ i.toNat % 2 = 1 := by
  rw [← Bool.not_eq_false, bitOf_eq_false_iff]
  exact Nat.mod_two_ne_zero

/-- Settles O17: the lanes that move are those whose content leaves, and the lane function has one case for each arm. -/
theorem compactStepRoutesLeft : Obligations.CompactStepRoutesLeft := by
  intro s i hi hn
  obtain ⟨-, -, -, -, -, -, -, hstepped⟩ := opcodeMapDecodes
  obtain ⟨-, -, hdecode, -⟩ := hstepped i hi
  refine ⟨hdecode, _, exec_cmp_of_legal hi hn, s.bufferFrame_bufferNext _, fun x hx moves hmoves => ?_,
    fun p => s.front_bufferNext_sourceLane_of_le _⟩
  have hleaves : ∀ y, moves y ↔ (s.front y).Leaves i := fun y =>
    (hmoves y).trans (and_congr_right fun _ => (bitOf_eq_true_iff _ i).symm)
  rw [s.front_bufferNext_sourceLane _ hx, s.cmpLane_eq, hleaves, hleaves]
  exact ⟨fun hpull => if_pos hpull, fun hpull => ⟨fun hstays => (if_neg hpull).trans (if_pos hstays),
    fun hgone => (if_neg hpull).trans (if_neg fun h => hgone.elim h.1 h.2)⟩⟩

/-! ## Ranks and displacements -/

/-- The number of kept lanes in `[0, p]` (`scan[p]` of 43_compactor.md R121): for a kept lane, one more than its
rank. -/
def keptUpTo (kept : Nat → Bool) (p : Nat) : Nat := Nat.count (fun q => kept q = true) (p + 1)

/-- The displacement `p - r` of a kept lane `p` of rank `r` (R121). -/
def displacement (kept : Nat → Bool) (p : Nat) : Nat := p + 1 - keptUpTo kept p

/-- Where the content of a kept lane is after the CMP steps below `i`: it has moved the low bits of its displacement
(R122). -/
def seat (kept : Nat → Bool) (i p : Nat) : Nat := p - displacement kept p % 2 ^ i

/-- Lane `x` is where the content of a kept lane below `n` is after the CMP steps below `i`. -/
abbrev IsSeat (kept : Nat → Bool) (n i x : Nat) : Prop := ∃ p, p < n ∧ kept p = true ∧ seat kept i p = x

/-- At step `i` the content of a kept lane `p` moves. -/
abbrev MovesAt (kept : Nat → Bool) (i p : Nat) : Prop := displacement kept p / 2 ^ i % 2 = 1

/-- The content of a kept lane as the first scan leaves it (R121). -/
def keptLane (kept : Nat → Bool) (p : Nat) : Lane := ⟨BitVec.ofNat 32 (keptUpTo kept p), BitVec.ofNat 32 p⟩

theorem length_filter_range (f : Nat → Bool) (n : Nat) :
    ((List.range n).filter f).length = Nat.count (fun q => f q = true) n := by
  simp [Nat.count, List.countP_eq_length_filter]

section
variable {kept : Nat → Bool} {i p q : Nat}

theorem keptUpTo_le (kept : Nat → Bool) (p : Nat) : keptUpTo kept p ≤ p + 1 := Nat.count_le _

theorem keptUpTo_pos (hp : kept p = true) : 1 ≤ keptUpTo kept p :=
  Nat.zero_lt_of_lt (Nat.count_lt_count_succ_iff.2 hp)

theorem keptUpTo_mono (h : p ≤ q) : keptUpTo kept p ≤ keptUpTo kept q := Nat.count_monotone _ (Nat.succ_le_succ h)

theorem keptUpTo_succ_of_kept (hq : kept (q + 1) = true) : keptUpTo kept (q + 1) = keptUpTo kept q + 1 :=
  Nat.count_succ_eq_succ_count_iff.2 hq

theorem keptUpTo_add_le (kept : Nat → Bool) (p d : Nat) : keptUpTo kept (p + d) ≤ keptUpTo kept p + d := by
  rw [keptUpTo, keptUpTo, Nat.add_right_comm, Nat.count_add]
  exact Nat.add_le_add_left (Nat.count_le _) _

theorem displacement_le (hp : kept p = true) : displacement kept p ≤ p := by
  have := keptUpTo_pos hp
  unfold displacement
  omega

theorem displacement_mod_le (hp : kept p = true) (i : Nat) : displacement kept p % 2 ^ i ≤ p :=
  (Nat.mod_le _ _).trans (displacement_le hp)

@[simp] theorem seat_zero (kept : Nat → Bool) (p : Nat) : seat kept 0 p = p := by simp [seat, Nat.mod_one]

/-- From a lane to a kept lane on its right the displacement grows by the lanes strictly between that are not kept. -/
theorem exists_displacement_eq_add {d : Nat} (hq : kept (p + d + 1) = true) :
    ∃ g, g ≤ d ∧ displacement kept (p + d + 1) = displacement kept p + g := by
  have hlast := keptUpTo_succ_of_kept hq
  have hmono := keptUpTo_mono (kept := kept) (Nat.le_add_right p d)
  have hle := keptUpTo_add_le kept p d
  have hcount := keptUpTo_le kept p
  unfold displacement
  exact ⟨d + keptUpTo kept p - keptUpTo kept (p + d), by omega, by omega⟩

/-- Kept contents keep their order: the low bits of the displacement grow by no more than it does, and that by at most
the lanes strictly between (R122). -/
theorem seat_lt (hp : kept p = true) (hq : kept q = true) (h : p < q) : seat kept i p < seat kept i q := by
  obtain ⟨d, rfl⟩ := Nat.exists_eq_add_of_lt h
  obtain ⟨g, hgd, hg⟩ := exists_displacement_eq_add hq
  have hlow : (displacement kept p + g) % 2 ^ i ≤ displacement kept p % 2 ^ i + g := by
    rw [← Nat.mod_add_mod]
    exact Nat.mod_le _ _
  have hmod := displacement_mod_le hp i
  rw [seat, seat, hg]
  omega

/-- No two kept contents share a lane. -/
theorem seat_inj (hp : kept p = true) (hq : kept q = true) (h : seat kept i p = seat kept i q) : p = q := by
  rcases Nat.lt_trichotomy p q with hlt | heq | hgt
  · exact absurd h (seat_lt hp hq hlt).ne
  · exact heq
  · exact absurd h (seat_lt hq hp hgt).ne'

theorem seat_le (kept : Nat → Bool) (i p : Nat) : seat kept i p ≤ p := Nat.sub_le _ _

theorem seat_succ_of_movesAt (hp : kept p = true) (h : MovesAt kept i p) :
    seat kept (i + 1) p + 2 ^ i = seat kept i p := by
  have hle := displacement_mod_le hp (i + 1)
  have hlow : displacement kept p % 2 ^ (i + 1) = displacement kept p % 2 ^ i + 2 ^ i := by
    rw [Nat.mod_pow_succ, h, Nat.mul_one]
  rw [seat, seat]
  omega

theorem seat_succ_of_not_movesAt (h : ¬MovesAt kept i p) : seat kept (i + 1) p = seat kept i p := by
  rw [seat, seat, Nat.mod_pow_succ, Nat.mod_two_ne_one.1 h, Nat.mul_zero, Nat.add_zero]

/-- From a lane below `2^i` the whole displacement has been travelled: the content is at its rank. -/
theorem seat_of_lt_two_pow (hp : kept p = true) (h : p < 2 ^ i) : seat kept i p = keptUpTo kept p - 1 := by
  have hle := displacement_le hp
  have hpos := keptUpTo_pos hp
  have hcount := keptUpTo_le kept p
  rw [seat, Nat.mod_eq_of_lt (hle.trans_lt h), displacement]
  omega

theorem dispC_keptLane (kept : Nat → Bool) (p : Nat) :
    dispC (keptLane kept p) = BitVec.ofNat 32 (displacement kept p) := by
  have hle := keptUpTo_le kept p
  unfold dispC keptLane displacement
  bv_omega

theorem keptLane_b_ne (kept : Nat → Bool) (hp : p < 2 ^ 29) : (keptLane kept p).b ≠ noLane := by
  unfold keptLane
  bv_omega

theorem keptLane_leaves_iff (hp : p < 2 ^ 29) (hi : i < 32) :
    (keptLane kept p).Leaves (BitVec.ofNat 5 i) ↔ MovesAt kept i p := by
  have hdisp : displacement kept p ≤ p + 1 := Nat.sub_le _ _
  have hword : displacement kept p % 2 ^ 32 = displacement kept p := Nat.mod_eq_of_lt (by omega)
  rw [Lane.Leaves, and_iff_right (keptLane_b_ne kept hp), dispC_keptLane, bitOf_eq_true_iff, BitVec.toNat_ofNat,
    BitVec.toNat_ofNat, hword, Nat.mod_eq_of_lt hi]

end

/-! ## The compaction stage -/

/-- The state `u` after the CMP steps below `i` from `s`: every kept content is at its seat, and no other lane is valid
(nor, once a step has run, anything but EMPTY). -/
structure Compacted (s : State) (kept : Nat → Bool) (i : Nat) (u : State) : Prop where
  n      : u.n = s.n
  nmax   : u.nmax = s.nmax
  seated : ∀ p, p < s.n.toNat → kept p = true → u.front (seat kept i p) = keptLane kept p
  others : ∀ x, x < s.n.toNat →
    IsSeat kept s.n.toNat i x ∨ (u.front x).b = noLane ∧ (i = 0 ∨ u.front x = Lane.empty)
  above  : ∀ x, s.n.toNat ≤ x → x < 2 * s.n.toNat → u.front x = Lane.empty

section
variable {s u : State} {kept : Nat → Bool} {i x p : Nat}

theorem State.SizeOk.lt_two_pow (hs : s.SizeOk) (hp : p < s.n.toNat) : p < 2 ^ 29 :=
  hp.trans_le (hs.2.1.trans hs.2.2)

/-- A valid lane holds the content of a kept lane. -/
theorem Compacted.isSeat_of_valid (h : Compacted s kept i u) (hx : x < s.n.toNat) (hv : (u.front x).b ≠ noLane) :
    IsSeat kept s.n.toNat i x :=
  (h.others x hx).resolve_right fun hb => hv hb.1

theorem Compacted.leaves_iff (hs : s.SizeOk) (h : Compacted s kept i u) (hi : i < 31) (hp : p < s.n.toNat)
    (hk : kept p = true) :
    (u.front (seat kept i p)).Leaves (BitVec.ofNat 5 i) ↔ MovesAt kept i p := by
  rw [h.seated p hp hk, keptLane_leaves_iff (hs.lt_two_pow hp) (by omega)]

/-- A content that leaves the lane `2^i` to the right of `x` has `x` as its next seat. -/
theorem Compacted.exists_of_leaves (hs : s.SizeOk) (h : Compacted s kept i u) (hi : i < 31)
    (hx : x + 2 ^ i < s.n.toNat) (hleaves : (u.front (x + 2 ^ i)).Leaves (BitVec.ofNat 5 i)) :
    ∃ p, p < s.n.toNat ∧ kept p = true ∧ MovesAt kept i p ∧ seat kept (i + 1) p = x := by
  obtain ⟨p, hp, hk, hseat⟩ := h.isSeat_of_valid hx hleaves.1
  rw [← hseat, h.leaves_iff hs hi hp hk] at hleaves
  have hmoved := seat_succ_of_movesAt hk hleaves
  exact ⟨p, hp, hk, hleaves, by omega⟩

/-- A CMP step takes every kept content to its next seat: it is pulled there, or stays where no other content comes. -/
theorem Compacted.cmpLane_seat (hs : s.SizeOk) (h : Compacted s kept i u) (hi : i < 31) (hp : p < s.n.toNat)
    (hk : kept p = true) : u.cmpLane (BitVec.ofNat 5 i) (seat kept (i + 1) p) = keptLane kept p := by
  have hbit := h.leaves_iff hs hi hp hk
  have hlt := (seat_le kept i p).trans_lt hp
  rw [u.cmpLane_eq, offset_ofNat (by omega), h.n]
  by_cases hmoves : MovesAt kept i p
  · rw [seat_succ_of_movesAt hk hmoves, if_pos ⟨hlt, hbit.2 hmoves⟩, h.seated p hp hk]
  · have hvalid : (u.front (seat kept i p)).b ≠ noLane := by
      rw [h.seated p hp hk]
      exact keptLane_b_ne kept (hs.lt_two_pow hp)
    have hpull : ¬(seat kept (i + 1) p + 2 ^ i < s.n.toNat ∧
        (u.front (seat kept (i + 1) p + 2 ^ i)).Leaves (BitVec.ofNat 5 i)) := by
      rintro ⟨hlt, hleaves⟩
      obtain ⟨q, -, hkq, hmovesq, hseat⟩ := h.exists_of_leaves hs hi hlt hleaves
      exact hmoves (seat_inj hkq hk hseat ▸ hmovesq)
    rw [if_neg hpull, seat_succ_of_not_movesAt hmoves, if_pos ⟨hvalid, fun hl => hmoves (hbit.1 hl)⟩,
      h.seated p hp hk]

/-- After a CMP step a lane is the next seat of a kept content, or EMPTY. -/
theorem Compacted.cmpLane_others (hs : s.SizeOk) (h : Compacted s kept i u) (hi : i < 31) (hx : x < s.n.toNat) :
    IsSeat kept s.n.toNat (i + 1) x ∨ u.cmpLane (BitVec.ofNat 5 i) x = Lane.empty := by
  rw [u.cmpLane_eq, offset_ofNat (by omega), h.n]
  split
  · next hpull =>
    obtain ⟨p, hp, hk, -, hseat⟩ := h.exists_of_leaves hs hi hpull.1 hpull.2
    exact .inl ⟨p, hp, hk, hseat⟩
  · split
    · next hstays =>
      obtain ⟨p, hp, hk, rfl⟩ := h.isSeat_of_valid hx hstays.1
      rw [h.leaves_iff hs hi hp hk] at hstays
      exact .inl ⟨p, hp, hk, seat_succ_of_not_movesAt hstays.2⟩
    · exact .inr rfl

theorem Compacted.exec_cmp (hs : s.SizeOk) (h : Compacted s kept i u) (hi : i < 31) :
    ∃ v, exec (.cmp (BitVec.ofNat 5 i)) u = .next v ∧ Compacted s kept (i + 1) v := by
  have hlegal : BitVec.ofNat 5 i ≠ 31#5 := ofNat_ne_ofNat_of_lt hi (by decide)
  have hlane : ∀ y, y < s.n.toNat → (u.bufferNext (u.sourceLane (u.cmpLane (BitVec.ofNat 5 i)))).front y =
      u.cmpLane (BitVec.ofNat 5 i) y := fun y hy => u.front_bufferNext_sourceLane _ (h.n ▸ hy)
  refine ⟨_, exec_cmp_of_legal hlegal (by rw [h.n, h.nmax]; exact hs.2.1), h.n, h.nmax, fun p hp hk => ?_,
    fun x hx => ?_, fun x hx hlanes => ?_⟩
  · rw [hlane _ ((seat_le kept _ p).trans_lt hp), h.cmpLane_seat hs hi hp hk]
  · rw [hlane x hx]
    exact (h.cmpLane_others hs hi hx).imp_right fun he => ⟨by rw [he]; rfl, .inr he⟩
  · exact u.front_bufferNext_sourceLane_of_le _ (h.n ▸ hx) (h.n ▸ hlanes)

/-- The compaction stage runs to its end, where the contents have moved the low `LOGN` bits of their displacements. -/
theorem Compacted.runPasses_cmp (hs : s.SizeOk) (h : Compacted s kept 0 s) :
    ∃ t, runPasses (ascending .cmp (clog2 s.n.toNat)) s = .next t ∧ Compacted s kept (clog2 s.n.toNat) t := by
  have hl := hs.clog2_n_le
  exact runPasses_ascending h fun i u hi hu => hu.exec_cmp hs (by omega)

/-- After the stage a kept content is in the lane of its rank. -/
theorem Compacted.front_rank {t : State} (h : Compacted s kept (clog2 s.n.toNat) t) (hp : p < s.n.toNat)
    (hk : kept p = true) : t.front (keptUpTo kept p - 1) = keptLane kept p := by
  rw [← seat_of_lt_two_pow hk (hp.trans_le (le_two_pow_clog2 _)), h.seated p hp hk]

/-- After the stage the lanes from the number of kept lanes up are EMPTY. With `LOGN = 0` there is none below `N`. -/
theorem Compacted.front_empty {t : State} (h : Compacted s kept (clog2 s.n.toNat) t) (h0 : kept 0 = true)
    (hx : keptUpTo kept (s.n.toNat - 1) ≤ x) (hlanes : x < 2 * s.n.toNat) : t.front x = Lane.empty := by
  rcases Nat.lt_or_ge x s.n.toNat with hlt | hge
  · have hlog := le_two_pow_clog2 s.n.toNat
    obtain ⟨p, hp, hk, hseat⟩ | ⟨-, hl | hempty⟩ := h.others x hlt
    · rw [seat_of_lt_two_pow hk (hp.trans_le hlog)] at hseat
      have hmono := keptUpTo_mono (kept := kept) (Nat.le_sub_one_of_lt hp)
      have hpos := keptUpTo_pos hk
      omega
    · rw [hl] at hlog
      have hmono := keptUpTo_mono (kept := kept) (Nat.zero_le (s.n.toNat - 1))
      have hpos := keptUpTo_pos h0
      omega
    · exact hempty
  · exact h.above x hge hlanes

/-- The front bank the stage is entered with: no content has moved yet. -/
theorem Compacted.start
    (hfront : ∀ p, p < s.n.toNat →
      s.front p = ⟨BitVec.ofNat 32 (keptUpTo kept p), if kept p then BitVec.ofNat 32 p else -1#32⟩)
    (habove : ∀ p, s.n.toNat ≤ p → p < 2 * s.n.toNat → s.front p = Lane.empty) : Compacted s kept 0 s where
  n      := rfl
  nmax   := rfl
  seated p hp hk := by rw [seat_zero, hfront p hp, if_pos hk, keptLane]
  others x hx := by
    rw [hfront x hx]
    by_cases hk : kept x = true
    · exact .inl ⟨x, hx, hk, seat_zero kept x⟩
    · exact .inr ⟨if_neg hk, .inl rfl⟩
  above  := habove

end

/-- Settles O43: the contents never share a lane while they move the bits of their displacements, and after `LOGN` steps
each has moved its whole displacement. -/
theorem compactionStageGivesDenseRanks : Obligations.CompactionStageGivesDenseRanks := by
  intro s kept scan hpos hn hmax hscan hfront habove h0
  obtain rfl : scan = keptUpTo kept := funext fun p => (hscan p).trans (length_filter_range kept (p + 1))
  obtain ⟨t, ht, h⟩ := (Compacted.start hfront habove).runPasses_cmp ⟨hpos, hn, hmax⟩
  exact ⟨t, ht, fun p => h.front_rank, fun x => h.front_empty h0⟩

end Sys2Proof.Machine
end

section
/-! PROOFS. The expander family: one EXP step (44_expander.md R130), and the expansion stage as slots that travel the
high bits of their displacement first and keep their order (R131, R132). -/

namespace Sys2Proof.Machine

/-! ## One EXP step -/

/-- A content is due to move at step `i` of the expander: it is valid and its displacement has bit `i` set. -/
abbrev State.Departs (s : State) (i : StepIx) (c : Lane) : Prop := c.b ≠ noLane ∧ bitOf (s.dispE c) i = true

theorem Lane.valid_and_not_iff (c : Lane) (d : Bool) :
    (c.valid && !d) = true ↔ c.b ≠ noLane ∧ ¬(c.b ≠ noLane ∧ d = true) := by
  rw [Bool.and_eq_true, Lane.valid_iff, Bool.not_eq_true', not_and, Bool.not_eq_true]
  exact and_congr_right fun hv => (imp_iff_right hv).symm

theorem State.expLane_eq (s : State) (i : StepIx) (x : Nat) :
    s.expLane i x =
      if offset i ≤ x ∧ s.Departs i (s.front (x - offset i)) then s.front (x - offset i)
      else if (s.front x).b ≠ noLane ∧ ¬s.Departs i (s.front x) then s.front x
      else Lane.empty := by
  simp only [State.expLane, route, Lane.valid_and_not_iff]
  simp only [Bool.and_eq_true, decide_eq_true_eq, Lane.valid_iff]

/-- A content that moves arrives `2^i` lanes to its right. -/
theorem State.expLane_of_departs {s : State} {i : StepIx} {x y : Nat} (hy : y + offset i = x)
    (hdeparts : s.Departs i (s.front y)) : s.expLane i x = s.front y := by
  have hleft : x - offset i = y := Nat.sub_eq_of_eq_add hy.symm
  rw [s.expLane_eq, hleft, if_pos ⟨hy ▸ Nat.le_add_left _ _, hdeparts⟩]

/-- Where no content arrives a lane keeps its own, if that is valid and does not move. -/
theorem State.expLane_of_no_arrival {s : State} {i : StepIx} {x : Nat}
    (h : ∀ y, y + offset i = x → ¬s.Departs i (s.front y)) :
    s.expLane i x = if (s.front x).b ≠ noLane ∧ ¬s.Departs i (s.front x) then s.front x else Lane.empty := by
  rw [s.expLane_eq, if_neg fun hpull => h _ (Nat.sub_add_cancel hpull.1) hpull.2]

theorem exec_exp_of_gathersInRange {s : State} {i : StepIx} (hi : i ≠ 31#5) (hn : s.n.toNat ≤ s.nmax)
    (hg : s.GathersInRange (2 * s.n.toNat)) : exec (.exp i) s = .next (s.bufferNext (s.expLane i)) :=
  (guardStep_of_legal hi _).trans (s.guardGather_of_ok hn ((s.gatherOk_iff_gathersInRange _).2 hg) _)

theorem State.front_bufferNext_of_lt (s : State) (f : Nat → Lane) {x : Nat} (hx : x < 2 * s.n.toNat) :
    (s.bufferNext f).front x = f x := by
  rw [s.front_bufferNext, if_pos (show x < s.lanes from hx)]

/-- Settles O19: the lanes that move are those whose content departs, and a lane has an arrival or none. -/
theorem expandStepRoutesRight : Obligations.ExpandStepRoutesRight := by
  intro s i hi hn hg
  obtain ⟨-, -, -, -, -, -, -, hstepped⟩ := opcodeMapDecodes
  obtain ⟨-, -, -, hdecode⟩ := hstepped i hi
  refine ⟨hdecode, _, exec_exp_of_gathersInRange hi hn hg, s.bufferFrame_bufferNext _,
    fun w hw moves hmoves x hx => ?_⟩
  have hdeparts : ∀ y, moves y ↔ s.Departs i (s.front y) := fun y => by
    have hdisp : s.dispE (s.front y) = (s.front y).a - w y := by
      rw [hw, State.dispE, State.symOf]
      simp only [isWide_iff]
    rw [hmoves, State.Departs, hdisp, bitOf_eq_true_iff]
  rw [s.front_bufferNext_of_lt _ hx, hdeparts x]
  refine ⟨fun y hy hmove => State.expLane_of_departs hy ((hdeparts y).1 hmove), fun hnone => ?_⟩
  rw [State.expLane_of_no_arrival fun y hy => mt (hdeparts y).2 (hnone y hy)]
  exact ⟨fun hstays => if_pos hstays, fun hgone => if_neg fun h => hgone.elim h.1 h.2⟩

/-! ## A run of a descending stage -/

theorem descending_succ (mk : StepIx → Instr) (l : Nat) :
    descending mk (l + 1) = mk (BitVec.ofNat 5 l) :: descending mk l := by
  simp only [descending, List.range_succ_eq_map, List.map_cons, List.map_map, Nat.add_sub_cancel, Nat.sub_zero,
    Function.comp_def, Nat.succ_eq_add_one, Nat.sub_add_eq, Nat.sub_right_comm l _ 1]

/-- The induction over a descending stage: what holds before it, and goes down each step index, holds after step 0. -/
theorem runPasses_descending {mk : StepIx → Instr} {l : Nat} {Holds : Nat → State → Prop} {s : State}
    (hl : Holds l s)
    (hstep : ∀ i u, i < l → Holds (i + 1) u → ∃ v, exec (mk (BitVec.ofNat 5 i)) u = .next v ∧ Holds i v) :
    ∃ t, runPasses (descending mk l) s = .next t ∧ Holds 0 t := by
  induction l generalizing s with
  | zero => exact ⟨s, rfl, hl⟩
  | succ l ih =>
    obtain ⟨u, hu, hinv⟩ := hstep l s (Nat.lt_succ_self l) hl
    rw [descending_succ, runPasses_of_next hu]
    exact ih hinv fun i u hi => hstep i u (Nat.lt_succ_of_lt hi)

/-! ## Displacements and places -/

/-- The number of wide slots before slot `j`, its rightward displacement (`e_j` of 44_expander.md R131). -/
def widesBefore (wide : Nat → Bool) (j : Nat) : Nat := Nat.count (fun q => wide q = true) j

/-- Where slot `j` is after the EXP steps from `i` up: it has moved the high bits of its displacement (R132). -/
def place (wide : Nat → Bool) (i j : Nat) : Nat := j + widesBefore wide j / 2 ^ i * 2 ^ i

/-- Lane `x` is where one of the first `k` slots is after the EXP steps from `i` up. -/
abbrev IsPlace (wide : Nat → Bool) (k i x : Nat) : Prop := ∃ j, j < k ∧ place wide i j = x

/-- At step `i` slot `j` moves. -/
abbrev ShiftsAt (wide : Nat → Bool) (i j : Nat) : Prop := widesBefore wide j / 2 ^ i % 2 = 1

section
variable {wide : Nat → Bool} {i j l : Nat}

theorem widesBefore_le (wide : Nat → Bool) (j : Nat) : widesBefore wide j ≤ j := Nat.count_le _

theorem widesBefore_succ (wide : Nat → Bool) (j : Nat) :
    widesBefore wide (j + 1) = widesBefore wide j + (wide j).toNat := by
  rw [widesBefore, Nat.count_succ, widesBefore]
  cases wide j <;> rfl

/-- Slots keep their order at every step: the number of wide slots before them does not fall, nor do its high bits. -/
theorem place_strictMono (wide : Nat → Bool) (i : Nat) : StrictMono (place wide i) := fun _ _ h =>
  Nat.add_lt_add_of_lt_of_le h (Nat.mul_le_mul_right _ (Nat.div_le_div_right (Nat.count_monotone _ h.le)))

theorem place_le (wide : Nat → Bool) (i j : Nat) : place wide i j ≤ 2 * j := by
  have hmul := Nat.div_mul_le_self (widesBefore wide j) (2 ^ i)
  have hle := widesBefore_le wide j
  unfold place
  omega

theorem place_zero (wide : Nat → Bool) (j : Nat) : place wide 0 j = j + widesBefore wide j := by simp [place]

/-- Before the stage no slot has moved: every displacement is below `2^l`. -/
theorem place_of_lt_two_pow (h : j < 2 ^ l) : place wide l j = j := by
  rw [place, Nat.div_eq_of_lt ((widesBefore_le wide j).trans_lt h), Nat.zero_mul, Nat.add_zero]

/-- The high bits of a displacement from `i` up are those from `i + 1` up and bit `i`. -/
theorem place_eq_place_succ_add (wide : Nat → Bool) (i j : Nat) :
    place wide i j = place wide (i + 1) j + widesBefore wide j / 2 ^ i % 2 * 2 ^ i := by
  have hbits := Nat.div_add_mod' (widesBefore wide j / 2 ^ i) 2
  rw [Nat.div_div_eq_div_mul, ← Nat.pow_succ] at hbits
  calc place wide i j
      = j + (widesBefore wide j / 2 ^ (i + 1) * 2 + widesBefore wide j / 2 ^ i % 2) * 2 ^ i := by rw [hbits, place]
    _ = _ := by rw [place, Nat.add_mul, Nat.mul_assoc, ← Nat.pow_succ', Nat.add_assoc]

theorem place_of_shiftsAt (h : ShiftsAt wide i j) : place wide i j = place wide (i + 1) j + 2 ^ i := by
  rw [place_eq_place_succ_add, h, Nat.one_mul]

theorem place_of_not_shiftsAt (h : ¬ShiftsAt wide i j) : place wide i j = place wide (i + 1) j := by
  rw [place_eq_place_succ_add, Nat.mod_two_ne_one.1 h, Nat.zero_mul, Nat.add_zero]

end

/-! ## The expansion stage -/

/-- The front bank the stage is entered with (R131): `k` dense slots whose displacements are the numbers of wide slots
before them, and no other valid lane. -/
structure DenseSlots (s : State) (wide : Nat → Bool) (k : Nat) : Prop where
  size    : s.SizeOk
  le      : k ≤ s.n.toNat
  gathers : ∀ j, j < k → (s.front j).b.toNat < s.n.toNat
  disp    : ∀ j, j < k → s.dispE (s.front j) = BitVec.ofNat 32 (widesBefore wide j)
  rest    : ∀ x, k ≤ x → x < 2 * s.n.toNat → (s.front x).b = noLane

/-- The state `u` after the EXP steps from `i` up of a stage of `LOGN` steps from `s`: every slot is at its place, and
no other lane is valid (nor, once a step has run, anything but EMPTY). -/
structure Expanded (s : State) (wide : Nat → Bool) (k i : Nat) (u : State) : Prop where
  n      : u.n = s.n
  nmax   : u.nmax = s.nmax
  sym    : ∀ p, u.symAt p = s.symAt p
  placed : ∀ j, j < k → u.front (place wide i j) = s.front j
  others : ∀ x, x < 2 * s.n.toNat →
    IsPlace wide k i x ∨ (u.front x).b = noLane ∧ (i = clog2 s.n.toNat ∨ u.front x = Lane.empty)

section
variable {s u : State} {wide : Nat → Bool} {i j k x y : Nat}

theorem DenseSlots.front_b_ne (hd : DenseSlots s wide k) (hj : j < k) : (s.front j).b ≠ noLane := by
  have hlt := hd.gathers j hj
  obtain ⟨-, hn, hmax⟩ := hd.size
  intro hb
  rw [hb, show (noLane : Word).toNat = 2 ^ 32 - 1 from rfl] at hlt
  omega

/-- Nothing leaves the `2N` lanes. -/
theorem DenseSlots.place_lt (hd : DenseSlots s wide k) (hj : j < k) : place wide i j < 2 * s.n.toNat := by
  have hle := place_le wide i j
  have hk := hd.le
  omega

theorem DenseSlots.expanded (hd : DenseSlots s wide k) : Expanded s wide k (clog2 s.n.toNat) s := by
  have hplace : ∀ j, j < k → place wide (clog2 s.n.toNat) j = j := fun j hj =>
    place_of_lt_two_pow (hj.trans_le (hd.le.trans (le_two_pow_clog2 _)))
  refine ⟨rfl, rfl, fun _ => rfl, fun j hj => by rw [hplace j hj], fun x hx => ?_⟩
  rcases Nat.lt_or_ge x k with hlt | hge
  · exact .inl ⟨x, hlt, hplace x hlt⟩
  · exact .inr ⟨hd.rest x hge hx, .inl rfl⟩

/-- A valid lane holds a slot. -/
theorem Expanded.isPlace_of_valid (h : Expanded s wide k i u) (hx : x < 2 * s.n.toNat) (hv : (u.front x).b ≠ noLane) :
    IsPlace wide k i x :=
  (h.others x hx).resolve_right fun hb => hv hb.1

theorem Expanded.sizeOk (hd : DenseSlots s wide k) (h : Expanded s wide k i u) : u.SizeOk := by
  rw [State.SizeOk, h.n, h.nmax]
  exact hd.size

theorem Expanded.gathersInRange (hd : DenseSlots s wide k) (h : Expanded s wide k i u) :
    u.GathersInRange (2 * u.n.toNat) := by
  have hgathers : u.GathersOk := by
    intro x hx
    rw [State.lanes, h.n] at hx
    rw [h.n]
    obtain ⟨j, hj, rfl⟩ | ⟨hb, -⟩ := h.others x hx
    · exact .inr (h.placed j hj ▸ hd.gathers j hj)
    · exact .inl hb
  exact (u.gatherOk_iff_gathersInRange _).1 (hgathers.gatherOk (h.sizeOk hd) le_rfl)

theorem Expanded.departs_iff (hd : DenseSlots s wide k) (h : Expanded s wide k (i + 1) u) (hi : i < 31) (hj : j < k) :
    u.Departs (BitVec.ofNat 5 i) (u.front (place wide (i + 1) j)) ↔ ShiftsAt wide i j := by
  have hword : widesBefore wide j < 2 ^ 32 := by
    have hle := widesBefore_le wide j
    have hk := hd.le
    omega
  have hdisp : u.dispE (s.front j) = BitVec.ofNat 32 (widesBefore wide j) := by
    rw [← hd.disp j hj, State.dispE, State.dispE, State.symOf, State.symOf, h.sym]
  rw [h.placed j hj, State.Departs, and_iff_right (hd.front_b_ne hj), hdisp, bitOf_eq_true_iff, BitVec.toNat_ofNat,
    BitVec.toNat_ofNat, Nat.mod_eq_of_lt hword, Nat.mod_eq_of_lt (show i < 2 ^ 5 by omega)]

/-- A content that departs is a slot whose next place is `2^i` lanes to the right. -/
theorem Expanded.exists_of_departs (hd : DenseSlots s wide k) (h : Expanded s wide k (i + 1) u) (hi : i < 31)
    (hy : y < 2 * s.n.toNat) (hdeparts : u.Departs (BitVec.ofNat 5 i) (u.front y)) :
    ∃ j, j < k ∧ ShiftsAt wide i j ∧ place wide i j = y + 2 ^ i := by
  obtain ⟨j, hj, rfl⟩ := h.isPlace_of_valid hy hdeparts.1
  rw [h.departs_iff hd hi hj] at hdeparts
  exact ⟨j, hj, hdeparts, place_of_shiftsAt hdeparts⟩

/-- An EXP step takes every slot to its next place: it is pulled there, or stays where no other slot comes. -/
theorem Expanded.expLane_place (hd : DenseSlots s wide k) (h : Expanded s wide k (i + 1) u) (hi : i < 31) (hj : j < k) :
    u.expLane (BitVec.ofNat 5 i) (place wide i j) = s.front j := by
  have hbit := h.departs_iff hd hi hj
  have hoff := offset_ofNat (show i < 32 by omega)
  by_cases hshifts : ShiftsAt wide i j
  · rw [State.expLane_of_departs (hoff.symm ▸ (place_of_shiftsAt hshifts).symm) (hbit.2 hshifts), h.placed j hj]
  · have hnone : ∀ y, y + offset (BitVec.ofNat 5 i) = place wide i j →
        ¬u.Departs (BitVec.ofNat 5 i) (u.front y) := by
      intro y hy hdeparts
      have hlt := hd.place_lt (i := i) hj
      obtain ⟨l, -, hl, hplace⟩ := h.exists_of_departs hd hi (by omega) hdeparts
      obtain rfl : l = j := (place_strictMono wide i).injective (by rw [hplace, ← hy, hoff])
      exact hshifts hl
    have hvalid : (u.front (place wide (i + 1) j)).b ≠ noLane := h.placed j hj ▸ hd.front_b_ne hj
    rw [State.expLane_of_no_arrival hnone, place_of_not_shiftsAt hshifts, if_pos ⟨hvalid, mt hbit.1 hshifts⟩,
      h.placed j hj]

/-- After an EXP step a lane is the next place of a slot, or EMPTY. -/
theorem Expanded.expLane_others (hd : DenseSlots s wide k) (h : Expanded s wide k (i + 1) u) (hi : i < 31)
    (hx : x < 2 * s.n.toNat) : IsPlace wide k i x ∨ u.expLane (BitVec.ofNat 5 i) x = Lane.empty := by
  by_cases harrival : ∃ y, y + offset (BitVec.ofNat 5 i) = x ∧ u.Departs (BitVec.ofNat 5 i) (u.front y)
  · obtain ⟨y, rfl, hdeparts⟩ := harrival
    obtain ⟨j, hj, -, hplace⟩ := h.exists_of_departs hd hi (by omega) hdeparts
    exact .inl ⟨j, hj, by rw [hplace, offset_ofNat (by omega)]⟩
  · rw [State.expLane_of_no_arrival fun y hy hdeparts => harrival ⟨y, hy, hdeparts⟩]
    split
    · next hstays =>
      obtain ⟨j, hj, rfl⟩ := h.isPlace_of_valid hx hstays.1
      rw [h.departs_iff hd hi hj] at hstays
      exact .inl ⟨j, hj, place_of_not_shiftsAt hstays.2⟩
    · exact .inr rfl

theorem Expanded.exec_exp (hd : DenseSlots s wide k) (h : Expanded s wide k (i + 1) u) (hi : i < 31) :
    ∃ v, exec (.exp (BitVec.ofNat 5 i)) u = .next v ∧ Expanded s wide k i v := by
  have hlegal : BitVec.ofNat 5 i ≠ 31#5 := ofNat_ne_ofNat_of_lt hi (by decide)
  have hlane : ∀ x, x < 2 * s.n.toNat → (u.bufferNext (u.expLane (BitVec.ofNat 5 i))).front x =
      u.expLane (BitVec.ofNat 5 i) x := fun x hx => u.front_bufferNext_of_lt _ (h.n ▸ hx)
  refine ⟨_, exec_exp_of_gathersInRange hlegal (h.sizeOk hd).2.1 (h.gathersInRange hd), h.n, h.nmax, h.sym,
    fun j hj => ?_, fun x hx => ?_⟩
  · rw [hlane _ (hd.place_lt hj), h.expLane_place hd hi hj]
  · rw [hlane x hx]
    exact (h.expLane_others hd hi hx).imp_right fun he => ⟨by rw [he]; rfl, .inr he⟩

/-- The expansion stage runs to its end, where the slots have moved their whole displacements. -/
theorem DenseSlots.runPasses_exp (hd : DenseSlots s wide k) :
    ∃ t, runPasses (descending .exp (clog2 s.n.toNat)) s = .next t ∧ Expanded s wide k 0 t := by
  have hl := hd.size.clog2_n_le
  exact runPasses_descending hd.expanded fun i u hi hu => hu.exec_exp hd (by omega)

theorem Expanded.front_place {t : State} (h : Expanded s wide k 0 t) (hj : j < k) :
    t.front (j + widesBefore wide j) = s.front j := by
  rw [← place_zero, h.placed j hj]

/-- After the stage every lane that is no slot's holds no content. With `LOGN = 0` it is as the stage found it. -/
theorem Expanded.front_empty {t : State} (h : Expanded s wide k 0 t) (hx : x < 2 * s.n.toNat)
    (hno : ∀ j, j < k → x ≠ j + widesBefore wide j) :
    (t.front x).b = noLane ∧ (2 ≤ s.n.toNat → t.front x = Lane.empty) := by
  obtain ⟨j, hj, hplace⟩ | ⟨hb, hempty⟩ := h.others x hx
  · exact absurd (hplace.symm.trans (place_zero wide j)) (hno j hj)
  · refine ⟨hb, fun hn => hempty.resolve_left fun hl => ?_⟩
    have hlog := le_two_pow_clog2 s.n.toNat
    rw [← hl] at hlog
    omega

/-- A slot's own count of wide slots, less its own width, counts the wide slots before it (R130). -/
theorem State.dispE_slot {p : Nat} (hp : p < 2 ^ 32) (hwide : wide j = isWide (s.symAt p)) :
    s.dispE ⟨BitVec.ofNat 32 (widesBefore wide (j + 1)), BitVec.ofNat 32 p⟩ =
      BitVec.ofNat 32 (widesBefore wide j) := by
  rw [State.dispE, State.symOf, BitVec.toNat_ofNat, Nat.mod_eq_of_lt hp, ← hwide, widesBefore_succ]
  cases wide j
  · exact BitVec.sub_zero _
  · exact (congrArg (· - 1#32) (BitVec.ofNat_add ..)).trans (add_sub_cancel_right _ _)

end

/-- Settles O44: the slots keep their order while they move the bits of their displacements, the highest first, and
after step 0 each has moved its whole displacement. -/
theorem expansionStageOpensWideSlots : Obligations.ExpansionStageOpensWideSlots := by
  intro s k src wide before hpos hn hmax hk _ hsrc hwide hbefore hfront hrest
  obtain rfl : before = widesBefore wide := funext fun j => (hbefore j).trans (length_filter_range wide j)
  have hword : ∀ j, j < k → src j < 2 ^ 32 := fun j hj => by
    have hlt := hsrc j hj
    omega
  have hd : DenseSlots s wide k := by
    refine ⟨⟨hpos, hn, hmax⟩, hk, fun j hj => ?_, fun j hj => ?_, hrest⟩
    · rw [hfront j hj, BitVec.toNat_ofNat, Nat.mod_eq_of_lt (hword j hj)]
      exact hsrc j hj
    · rw [hfront j hj, State.dispE_slot (hword j hj) (hwide j)]
  obtain ⟨t, ht, h⟩ := hd.runPasses_exp
  refine ⟨t, ht, fun j => h.front_place, fun x => h.front_empty, fun j _ => ?_, fun j hj => ?_⟩
  · rw [widesBefore_succ]
    omega
  · have hle := widesBefore_le wide j
    have hbit := Bool.toNat_le (wide j)
    omega

end Sys2Proof.Machine
end

section
/-! PROOFS. The packer family: the byte PCK writes to each slot (45_packer.md R140), the length as a difference of
source indices, so that no `a` component is read (R142), and the sizing of the output by FIN (R141). -/

namespace Sys2Proof.Machine

/-! ## The bytes of a chunk (20_memory.md R56) -/

theorem toNat_append_nibble (x y : BitVec 4) : (x ++ y).toNat = x.toNat * 16 + y.toNat := by
  rw [BitVec.toNat_append, ← Nat.shiftLeft_add_eq_or_of_lt y.isLt, Nat.shiftLeft_eq]

theorem wideFirstByte_toNat (x : Symbol) (len : Word) :
    (wideFirstByte x len).toNat = x.toNat * 16 + len.toNat / 256 % 16 := by
  rw [wideFirstByte, toNat_append_nibble, BitVec.extractLsb'_toNat, Nat.shiftRight_eq_div_pow]

theorem wideSecondByte_toNat (len : Word) : (wideSecondByte len).toNat = len.toNat % 256 :=
  BitVec.extractLsb'_toNat ..

theorem narrowByte_toNat (x : Symbol) (len : Word) : (narrowByte x len).toNat = x.toNat * 16 + len.toNat % 16 := by
  rw [narrowByte, toNat_append_nibble, BitVec.extractLsb'_toNat, Nat.shiftRight_zero]

/-! ## The next chunk's source index -/

theorem State.nextSrc_of_valid {s : State} {d : Nat} (hd : d < 2 * s.n.toNat) (hv : (s.front d).b ≠ noLane) :
    s.nextSrc d = (s.front d).b :=
  if_pos (Bool.and_eq_true_iff.2 ⟨decide_eq_true hd, (Lane.valid_iff _).2 hv⟩)

theorem State.nextSrc_of_none {s : State} {d : Nat} (h : 2 * s.n.toNat ≤ d ∨ (s.front d).b = noLane) :
    s.nextSrc d = s.n := by
  refine if_neg fun hnext => ?_
  obtain ⟨hd, hv⟩ := Bool.and_eq_true_iff.1 hnext
  exact h.elim (Nat.not_le.2 (of_decide_eq_true hd)) ((Lane.valid_iff _).1 hv)

/-- A function with the two cases of R140's `nextSrc` is the model's. -/
theorem State.eq_nextSrc {s : State} {next : Nat → Word}
    (hvalid : ∀ d, d < 2 * s.n.toNat → (s.front d).b ≠ noLane → next d = (s.front d).b)
    (hnone : ∀ d, (2 * s.n.toNat ≤ d ∨ (s.front d).b = noLane) → next d = s.n) : next = s.nextSrc := by
  funext d
  by_cases h : 2 * s.n.toNat ≤ d ∨ (s.front d).b = noLane
  · rw [hnone d h, State.nextSrc_of_none h]
  · obtain ⟨hd, hv⟩ := not_or.1 h
    rw [hvalid d (Nat.not_le.1 hd) hv, State.nextSrc_of_valid (Nat.not_le.1 hd) hv]

/-! ## One byte of PCK -/

/-- Slot `d` holds the first byte of a wide chunk: it is valid and its own symbol is wide. -/
abbrev State.WideSlot (s : State) (d : Nat) : Prop := (s.front d).b ≠ noLane ∧ isWide (s.symOf (s.front d).b) = true

/-- The slot after slot `c` holds a second byte exactly when slot `c` is wide. -/
theorem State.secondOfWide_succ (s : State) (c : Nat) : s.secondOfWide (c + 1) = true ↔ s.WideSlot c := by
  simp only [State.secondOfWide, Nat.add_sub_cancel, Nat.le_add_left, decide_true, Bool.true_and, Bool.and_eq_true,
    Lane.valid_iff]

theorem State.packByte_of_wide {s : State} {d : Nat} (h : s.WideSlot d) :
    s.packByte d = wideFirstByte (s.symOf (s.front d).b) (s.nextSrc (d + 2) - (s.front d).b) := by
  rw [State.packByte, if_pos ((Lane.valid_iff _).2 h.1), if_pos h.2]

theorem State.packByte_of_narrow {s : State} {d : Nat} (hv : (s.front d).b ≠ noLane) (h : ¬s.WideSlot d) :
    s.packByte d = narrowByte (s.symOf (s.front d).b) (s.nextSrc (d + 1) - (s.front d).b) := by
  rw [State.packByte, if_pos ((Lane.valid_iff _).2 hv), if_neg fun hw => h ⟨hv, hw⟩]

theorem State.packByte_of_empty {s : State} {d : Nat} (h : (s.front d).b = noLane) :
    s.packByte d =
      if s.secondOfWide d then wideSecondByte (s.nextSrc (d + 1) - (s.front (d - 1)).b) else 0x00#8 :=
  if_neg fun hv => (Lane.valid_iff _).1 hv h

theorem State.packByte_of_second {s : State} {c : Nat} (h : (s.front (c + 1)).b = noLane) (hwide : s.WideSlot c) :
    s.packByte (c + 1) = wideSecondByte (s.nextSrc (c + 2) - (s.front c).b) := by
  rw [State.packByte_of_empty h, if_pos ((s.secondOfWide_succ c).2 hwide), Nat.add_sub_cancel]

/-- An empty slot that follows no wide one, slot 0 among them, is written 0. -/
theorem State.packByte_of_unused {s : State} {d : Nat} (h : (s.front d).b = noLane)
    (hnone : ∀ c, c + 1 = d → ¬s.WideSlot c) : s.packByte d = 0x00#8 := by
  rw [State.packByte_of_empty h]
  cases d with
  | zero => rfl
  | succ c => exact if_neg (mt (s.secondOfWide_succ c).1 (hnone c rfl))

/-! ## PCK -/

theorem exec_pck_of_gathersInRange {s : State} (hn : s.n.toNat ≤ s.nmax) (hg : s.GathersInRange (2 * s.n.toNat)) :
    exec .pck s = .next (s.fillOut s.packByte).advancePc :=
  s.guardGather_of_ok hn ((s.gatherOk_iff_gathersInRange _).2 hg) _

/-- Settles O20: below `2N` a byte is that of its slot's kind, a wide chunk's first or second, a narrow one's, or
unused; the rest is PCK's frame. -/
theorem packPassWritesEveryByte : Obligations.PackPassWritesEveryByte := by
  refine ⟨decode_encode (i := .pck) rfl, fun s hn hg => ?_⟩
  have h := exec_pck_of_gathersInRange hn hg
  obtain ⟨hframe, hflags, hcounts, hfree, habove⟩ := exec_pck_frame h
  refine ⟨_, h, hframe, hflags, hcounts, hfree, habove, fun next hvalid hnone wide hwide d hd => ?_⟩
  obtain rfl : next = s.nextSrc := State.eq_nextSrc hvalid hnone
  have hslot : ∀ c, wide c ↔ s.WideSlot c := fun c =>
    (hwide c).trans (and_congr_right fun _ => (isWide_iff _).symm)
  rw [exec_pck_outAt h hd, hslot]
  refine ⟨fun hw => ?_, fun hv hw => ?_, fun hempty => ⟨?_, fun hno => ?_⟩⟩
  · rw [State.packByte_of_wide hw, wideFirstByte_toNat, State.symOf]
  · rw [State.packByte_of_narrow hv hw, narrowByte_toNat, State.symOf]
  · rintro c rfl hw
    rw [State.packByte_of_second hempty ((hslot c).1 hw), wideSecondByte_toNat]
  · exact State.packByte_of_unused hempty fun c hc => mt (hslot c).2 (hno c hc)

/-! ## What the packer reads -/

theorem Lane.valid_congr {c c' : Lane} (h : c'.b = c.b) : c'.valid = c.valid := by rw [Lane.valid, Lane.valid, h]

section
variable {s s' : State} (hn : s'.n = s.n) (hb : ∀ p, p < 2 * s.n.toNat → (s'.front p).b = (s.front p).b)
include hn hb

/-- The next source index reads `N` and the `b` components only. -/
theorem State.nextSrc_congr_b (d : Nat) : s'.nextSrc d = s.nextSrc d := by
  rw [State.nextSrc, State.nextSrc, State.lanes, State.lanes, hn]
  by_cases hd : d < 2 * s.n.toNat
  · rw [Lane.valid_congr (hb d hd), hb d hd]
  · simp only [hd, decide_false, Bool.false_and, Bool.false_eq_true, if_false]

/-- A byte of PCK reads `N`, the symbols and the `b` components only. -/
theorem State.packByte_congr_b (hsym : ∀ p, s'.symAt p = s.symAt p) {d : Nat} (hd : d < 2 * s.n.toNat) :
    s'.packByte d = s.packByte d := by
  have hsymOf : ∀ b, s'.symOf b = s.symOf b := fun b => hsym _
  have hleft : d - 1 < 2 * s.n.toNat := by omega
  rw [State.packByte, State.packByte, State.secondOfWide, State.secondOfWide, Lane.valid_congr (hb d hd),
    Lane.valid_congr (hb _ hleft), hb d hd, hb _ hleft, hsymOf, hsymOf, State.nextSrc_congr_b hn hb,
    State.nextSrc_congr_b hn hb]

end

/-- Settles O45: the bytes PCK wrote are a function of what the two states share. -/
theorem packerReadsNoRunLength : Obligations.PackerReadsNoRunLength := by
  intro s s' t t' hn hsym hb h h' d hd
  have hd' : d < s'.lanes := by rw [State.lanes, hn]; exact hd
  rw [exec_pck_outAt h hd, exec_pck_outAt h' hd', State.packByte_congr_b hn hb hsym hd]

/-! ## FIN -/

theorem exec_fin (s : State) :
    exec .fin s = .next ((s.setMbytes (s.keepcnt + s.widecnt)).finishFlags).advancePc :=
  rfl

/-- Settles O21: FIN has no guard, and its frame leaves the three registers its update names. -/
theorem finishSizesTheOutput : Obligations.FinishSizesTheOutput := by
  refine ⟨decode_encode (i := .fin) rfl, fun s => ?_⟩
  obtain ⟨hframe, hout, hkeep, hrep, hwide⟩ := exec_fin_frame (exec_fin s)
  exact ⟨_, exec_fin s, rfl, rfl, rfl, rfl, rfl, hkeep, hrep, hwide, hframe, hout, rfl⟩

end Sys2Proof.Machine
end

section
/-! PROOFS. The sequencer family, its steps: the fetched word and its execution (46_sequencer_host.md R150, R152), and
the word `PROG(N)` holds at each index (R151). -/

namespace Sys2Proof.Machine

/-! ## The sequencer's turn -/

theorem step_of_inbox {s : State} {e : Event} {rest : List Event} (h : s.inbox = e :: rest) :
    step s = State.event e { s with inbox := rest } := by
  rw [step_eq_event, State.nextEvent, h]
  rfl

theorem step_of_inbox_nil {s : State} (h : s.inbox = []) : step s = s.seqTurn := by
  rw [step, State.transition, h]

theorem State.seqTurn_of_fetchWord {s : State} {w : PassWord} {i : Instr} (hb : s.busy = true)
    (hw : s.fetchWord = some w) (hi : decode w = .instr i) : s.seqTurn = exec i s.dropSupplied := by
  simp only [State.seqTurn, hb, if_true, State.seqStep, hw, hi]

theorem State.seqTurn_of_idle {s : State} (hb : s.busy = false) : s.seqTurn = .next s :=
  if_neg (Bool.eq_false_iff.1 hb)

/-- A busy sequencer on turn executes what it fetched, less the turn and the supplied word it used. -/
theorem step_of_fetchWord {s : State} {w : PassWord} {i : Instr} (hb : s.busy = true) (hturn : s.nextEvent = .pass)
    (hw : s.fetchWord = some w) (hi : decode w = .instr i) :
    step s = exec i { s with inbox := s.inbox.tail, supplied := s.supplied.tail } := by
  rw [step_eq_event, hturn]
  exact State.seqTurn_of_fetchWord (s := { s with inbox := s.inbox.tail }) hb hw hi

theorem State.fetchWord_of_program {s : State} {w : PassWord} (h : s.supplied = []) (hn : s.n ≠ 0#32)
    (hw : (progOf (clog2 s.n.toNat))[s.pc.toNat]? = some w) : s.fetchWord = some w := by
  rw [State.fetchWord, h, State.progWord, if_neg hn, hw]

theorem State.fetchWord_of_supplied {s : State} {w : PassWord} {ws : List PassWord} (h : s.supplied = w :: ws) :
    s.fetchWord = some w := by
  rw [State.fetchWord, h]

theorem State.nextEvent_of_nil {s : State} (h : s.inbox = []) : s.nextEvent = .pass := by
  rw [State.nextEvent, h]
  rfl

theorem State.nextEvent_of_cons {s : State} {e : Event} {rest : List Event} (h : s.inbox = e :: rest) :
    s.nextEvent = e := by
  rw [State.nextEvent, h]
  rfl

theorem State.withFetchWord_of_passWord (s : State) (w : PassWord) : s.withFetchWord 16 w.toNat = s.supplyWord w := by
  have hfits : w.toNat % 2 ^ 16 = w.toNat := Nat.mod_eq_of_lt w.isLt
  rw [State.withFetchWord, tableWord, hfits, if_pos w.isLt, BitVec.ofNat_toNat, BitVec.setWidth_eq]

/-- Settles O7: whether the word at `PC` or a supplied one is fetched, the turn executes it. -/
theorem stepRunsTheDecodedPass : Obligations.StepRunsTheDecodedPass := by
  intro s w i hi
  refine ⟨fun hb hnone hn hw => ?_, fun hb ws hsupplied => ?_, ?_⟩
  · have hfetch := State.fetchWord_of_program hnone hn hw
    refine ⟨fun h => ?_, fun rest h => ?_⟩
    · rw [step_of_fetchWord hb (State.nextEvent_of_nil h) hfetch hi, h, hnone, List.tail_nil, List.tail_nil, ← hnone,
        ← h]
    · rw [step_of_fetchWord hb (State.nextEvent_of_cons h) hfetch hi, h, hnone, List.tail_nil, List.tail_cons, ← hnone]
  · have hfetch := State.fetchWord_of_supplied hsupplied
    refine ⟨fun h => ?_, fun rest h => ?_⟩
    · rw [step_of_fetchWord hb (State.nextEvent_of_nil h) hfetch hi, h, hsupplied, List.tail_nil, List.tail_cons, ← h]
    · rw [step_of_fetchWord hb (State.nextEvent_of_cons h) hfetch hi, h, hsupplied, List.tail_cons, List.tail_cons]
  · rw [s.withFetchWord_of_passWord]
    exact step_of_fetchWord (s := s.supplyWord w) rfl rfl (State.fetchWord_of_supplied rfl) hi

/-- Settles O8: an idle sequencer's turn is the state it is taken in. -/
theorem idleSequencerDoesNothing : Obligations.IdleSequencerDoesNothing := by
  intro s hb
  exact ⟨fun h => (step_of_inbox_nil h).trans (State.seqTurn_of_idle hb), fun rest h =>
    (step_of_inbox h).trans (State.seqTurn_of_idle (s := { s with inbox := rest }) hb)⟩

/-! ## Pieces of a list -/

section
variable {α β : Type} (f : α → List β) (l : List α)

/-- Where in `l.flatMap f` the piece of the `j`-th element begins. -/
def pieceStart (j : Nat) : Nat := ((l.take j).flatMap f).length

@[simp] theorem pieceStart_zero : pieceStart f l 0 = 0 := rfl

theorem pieceStart_succ {j : Nat} (h : j < l.length) : pieceStart f l (j + 1) = pieceStart f l j + (f l[j]).length := by
  rw [pieceStart, pieceStart, List.take_succ_eq_append_getElem h, List.flatMap_append, List.length_append,
    List.flatMap_singleton]

theorem pieceStart_length : pieceStart f l l.length = (l.flatMap f).length := by
  rw [pieceStart, List.take_length]

theorem getElem?_flatMap_pieceStart {j e : Nat} (h : j < l.length) (he : e < (f l[j]).length) :
    (l.flatMap f)[pieceStart f l j + e]? = (f l[j])[e]? := by
  have hsplit : l.flatMap f = (l.take j).flatMap f ++ (f l[j] ++ (l.drop (j + 1)).flatMap f) := by
    rw [← List.flatMap_cons, ← List.flatMap_append, List.getElem_cons_drop, List.take_append_drop]
  rw [hsplit, pieceStart, List.getElem?_append_right (Nat.le_add_right _ _), Nat.add_sub_cancel_left,
    List.getElem?_append_left he]

theorem pieceStart_cons_succ (a : α) (j : Nat) :
    pieceStart f (a :: l) (j + 1) = (f a).length + pieceStart f l j := by
  rw [pieceStart, pieceStart, List.take_succ_cons, List.flatMap_cons, List.length_append]

theorem pieceStart_mono {i j : Nat} (h : i ≤ j) : pieceStart f l i ≤ pieceStart f l j := by
  obtain ⟨rest, hrest⟩ := List.take_prefix_take_left (l := l) h
  rw [pieceStart, pieceStart, ← hrest, List.flatMap_append, List.length_append]
  exact Nat.le_add_right _ _

/-- Every position is in a piece. -/
theorem exists_pieceStart_add {d : Nat} (h : d < (l.flatMap f).length) :
    ∃ j, ∃ hj : j < l.length, ∃ e, e < (f l[j]).length ∧ d = pieceStart f l j + e := by
  induction l generalizing d with
  | nil => exact absurd h (Nat.not_lt_zero d)
  | cons a l ih =>
    rw [List.flatMap_cons, List.length_append] at h
    rcases Nat.lt_or_ge d (f a).length with hlt | hge
    · exact ⟨0, Nat.succ_pos _, d, hlt, (Nat.zero_add d).symm⟩
    · obtain ⟨j, hj, e, he, hd⟩ := ih (d := d - (f a).length) (by omega)
      refine ⟨j + 1, Nat.succ_lt_succ hj, e, he, ?_⟩
      rw [pieceStart_cons_succ]
      omega

end

/-! ## The words of the program -/

/-- The twelve rows of the table of R151, one list of words each. -/
def progRows (l : Nat) : List (List PassWord) :=
  [[0x1000#16], stageUp 0x2000#16 l, [0x3000#16], stageUp 0x4000#16 l, [0x5000#16], stageUp 0x6000#16 l, [0x7000#16],
    stageUp 0x4000#16 l, [0x8000#16], stageDown 0x9000#16 l, [0xA000#16], [0xB000#16]]

theorem progOf_eq_flatMap_progRows (l : Nat) : progOf l = (progRows l).flatMap id := by
  simp only [progOf, progRows, List.flatMap_cons, List.flatMap_nil, id_eq, List.append_assoc, List.cons_append,
    List.nil_append]

@[simp] theorem stageUp_length (base : PassWord) (l : Nat) : (stageUp base l).length = l := by simp [stageUp]

@[simp] theorem stageDown_length (base : PassWord) (l : Nat) : (stageDown base l).length = l := by simp [stageDown]

theorem stageUp_getElem? (base : PassWord) {l i : Nat} (h : i < l) :
    (stageUp base l)[i]? = some (base + BitVec.ofNat 16 i) := by
  rw [stageUp, List.getElem?_map, List.getElem?_range h, Option.map_some]

theorem stageDown_getElem? (base : PassWord) {l k : Nat} (h : k < l) :
    (stageDown base l)[k]? = some (base + BitVec.ofNat 16 (l - 1 - k)) := by
  rw [stageDown, List.getElem?_map, List.getElem?_range h, Option.map_some]

theorem progOf_length (l : Nat) : (progOf l).length = 5 * l + 7 := by
  simp only [progOf_eq_flatMap_progRows, progRows, List.flatMap_cons, List.flatMap_nil, id_eq, List.length_append,
    List.length_cons, List.length_nil, stageUp_length, stageDown_length]
  omega

/-- A word of the program by its row and its place in the row. -/
theorem State.progWord_of_row {s : State} {j e : Nat} {row : List PassWord} (hn : s.n ≠ 0#32)
    (hrow : (progRows (clog2 s.n.toNat))[j]? = some row) (he : e < row.length)
    (hpc : s.pc.toNat = pieceStart id (progRows (clog2 s.n.toNat)) j + e) : s.progWord = row[e]? := by
  obtain ⟨hj, rfl⟩ := List.getElem?_eq_some_iff.1 hrow
  rw [State.progWord, if_neg hn, progOf_eq_flatMap_progRows, hpc, getElem?_flatMap_pieceStart id _ hj he, id_eq]

theorem State.progWord_of_single {s : State} {j : Nat} {w : PassWord} (hn : s.n ≠ 0#32)
    (hrow : (progRows (clog2 s.n.toNat))[j]? = some [w])
    (hpc : s.pc.toNat = pieceStart id (progRows (clog2 s.n.toNat)) j) : s.progWord = some w :=
  State.progWord_of_row (e := 0) hn hrow Nat.one_pos hpc

theorem State.progWord_of_stageUp {s : State} {j i : Nat} {base : PassWord} (hn : s.n ≠ 0#32)
    (hrow : (progRows (clog2 s.n.toNat))[j]? = some (stageUp base (clog2 s.n.toNat))) (hi : i < clog2 s.n.toNat)
    (hpc : s.pc.toNat = pieceStart id (progRows (clog2 s.n.toNat)) j + i) :
    s.progWord = some (base + BitVec.ofNat 16 i) :=
  (State.progWord_of_row hn hrow (by rwa [stageUp_length]) hpc).trans (stageUp_getElem? base hi)

theorem State.progWord_of_stageDown {s : State} {j k : Nat} {base : PassWord} (hn : s.n ≠ 0#32)
    (hrow : (progRows (clog2 s.n.toNat))[j]? = some (stageDown base (clog2 s.n.toNat))) (hk : k < clog2 s.n.toNat)
    (hpc : s.pc.toNat = pieceStart id (progRows (clog2 s.n.toNat)) j + k) :
    s.progWord = some (base + BitVec.ofNat 16 (clog2 s.n.toNat - 1 - k)) :=
  (State.progWord_of_row hn hrow (by rwa [stageDown_length]) hpc).trans (stageDown_getElem? base hk)

/-- Where each row begins. -/
theorem pieceStart_progRows (l : Nat) :
    (List.range 12).map (pieceStart id (progRows l)) =
      [0, 1, l + 1, l + 2, 2 * l + 2, 2 * l + 3, 3 * l + 3, 3 * l + 4, 4 * l + 4, 4 * l + 5, 5 * l + 5, 5 * l + 6] := by
  simp only [progRows, List.range_succ, List.range_zero, List.nil_append, List.cons_append, List.map_cons,
    pieceStart, List.take_zero, List.flatMap_nil, List.length_nil, List.take_succ_cons, List.flatMap_cons, id_eq,
    List.append_nil, List.length_cons, zero_add, stageUp_length, List.length_append, stageDown_length, List.map_nil,
    List.cons.injEq, Nat.add_right_cancel_iff, and_true, true_and]
  omega

/-- Settles O6: the index of a word is where its row begins and its place in the row. -/
theorem programWordAtEachIndex : Obligations.ProgramWordAtEachIndex := by
  rintro s l hn rfl
  have hstart := pieceStart_progRows (clog2 s.n.toNat)
  simp only [List.range_succ, List.range_zero, List.nil_append, List.cons_append, List.map_cons, List.map_nil,
    List.cons.injEq, and_true] at hstart
  obtain ⟨hrli, hrls, hsgk, hscn, hrdk, hcmp, hsgw, hscn', hrdw, hexp, hpck, hfin⟩ := hstart
  exact ⟨progOf_length _,
    fun h => State.progWord_of_single hn rfl (h.trans hrli.symm),
    fun i hi h => State.progWord_of_stageUp (j := 1) hn rfl hi (by rw [h, hrls]),
    fun h => State.progWord_of_single hn rfl (h.trans hsgk.symm),
    fun i hi h => State.progWord_of_stageUp (j := 3) hn rfl hi (by rw [h, hscn]),
    fun h => State.progWord_of_single hn rfl (h.trans hrdk.symm),
    fun i hi h => State.progWord_of_stageUp (j := 5) hn rfl hi (by rw [h, hcmp]),
    fun h => State.progWord_of_single hn rfl (h.trans hsgw.symm),
    fun i hi h => State.progWord_of_stageUp (j := 7) hn rfl hi (by rw [h, hscn']),
    fun h => State.progWord_of_single hn rfl (h.trans hrdw.symm),
    fun k hk h => State.progWord_of_stageDown (j := 9) hn rfl hk (by rw [h, hexp]),
    fun h => State.progWord_of_single hn rfl (h.trans hpck.symm),
    fun h => State.progWord_of_single hn rfl (h.trans hfin.symm)⟩

end Sys2Proof.Machine
end

section
/-! PROOFS. The sequencer family, the host port: reads (46_sequencer_host.md R161), writes (R160), START (R162) and
ABORT (R164). -/

namespace Sys2Proof.Machine

/-! ## Host reads -/

theorem toNat_append_ofBool {w : Nat} (v : BitVec w) (b : Bool) :
    (v ++ BitVec.ofBool b).toNat = 2 * v.toNat + b.toNat := by
  rw [BitVec.toNat_append, ← Nat.shiftLeft_add_eq_or_of_lt (BitVec.ofBool b).isLt, Nat.shiftLeft_eq,
    BitVec.toNat_ofBool, Nat.mul_comm]

/-- The STATUS bits in their places (10_state.md R33). -/
theorem State.statusWord_toNat (s : State) :
    s.statusWord.toNat = s.busy.toNat + 2 * s.done.toNat + 4 * s.cfgerr.toNat + 256 * s.errcode.toNat := by
  have herr : (0#20 ++ s.errcode ++ 0#5).toNat = s.errcode.toNat * 2 ^ 5 := by
    rw [BitVec.toNat_append, BitVec.toNat_append]
    simp [Nat.shiftLeft_eq]
  rw [State.statusWord, toNat_append_ofBool, toNat_append_ofBool, toNat_append_ofBool, herr]
  omega

theorem SymCell.word_toNat (c : SymCell) : c.word.toNat = c.symbol.toNat + 16 * c.oor.toNat := by
  rw [SymCell.word, BitVec.toNat_append, ← Nat.shiftLeft_add_eq_or_of_lt c.symbol.isLt, Nat.shiftLeft_eq,
    toNat_append_ofBool, BitVec.toNat_ofNat, Nat.zero_mod]
  omega

/-- No register is at CTRL's index or from 11 up. -/
theorem State.readReg_of_none (s : State) {ix : Nat} (h : ix = 0 ∨ 11 ≤ ix) : s.readReg ix = 0#32 := by
  obtain rfl | h := h
  · rfl
  · obtain ⟨k, rfl⟩ := Nat.exists_eq_add_of_le' h
    rfl

theorem State.hostRead_sym_of_lt (s : State) {ix : Nat} (h : ix < s.nmax) :
    s.hostRead .sym ix = (s.symCell ix).word :=
  if_pos h

theorem State.hostRead_sym_of_le (s : State) {ix : Nat} (h : s.nmax ≤ ix) : s.hostRead .sym ix = 0#32 :=
  if_neg (Nat.not_lt.2 h)

theorem State.hostRead_out_of_lt (s : State) {ix : Nat} (h : ix < 2 * s.nmax) :
    s.hostRead .out ix = (s.outAt ix).setWidth 32 :=
  if_pos h

theorem State.hostRead_out_of_le (s : State) {ix : Nat} (h : 2 * s.nmax ≤ ix) : s.hostRead .out ix = 0#32 :=
  if_neg (Nat.not_lt.2 h)

theorem step_hostRead {s : State} {sp : Space} {ix : Nat} {rest : List Event} (h : s.inbox = .hostRead sp ix :: rest) :
    step s = .next { s with inbox := rest, answers := s.hostRead sp ix :: s.answers } :=
  step_of_inbox h

/-- Settles O32: the step adds the word the read returns to the answers, and each space reads as its table says. -/
theorem hostReadReturnsTheCell : Obligations.HostReadReturnsTheCell := by
  intro s sp ix rest h
  refine ⟨s.hostRead sp ix, step_hostRead h, ?_, ?_, ?_⟩
  · rintro rfl
    refine ⟨s.readReg_of_none, ?_, ?_, ?_, ?_, ?_, ?_, ?_, ?_, ?_, ?_⟩ <;> rintro rfl
    · exact s.statusWord_toNat
    iterate 7 rfl
    · exact BitVec.toNat_setWidth_of_le (by decide)
    · rfl
  · rintro rfl
    exact ⟨fun hix => by rw [s.hostRead_sym_of_lt hix, SymCell.word_toNat]; rfl, s.hostRead_sym_of_le⟩
  · rintro rfl
    refine ⟨fun hix => ?_, s.hostRead_out_of_le⟩
    rw [s.hostRead_out_of_lt hix]
    exact BitVec.toNat_setWidth_of_le (by decide)

/-! ## Host writes -/

theorem step_hostWrite {s : State} {sp : Space} {ix : Nat} {w : Word} {rest : List Event}
    (h : s.inbox = .hostWrite sp ix w :: rest) :
    step s = .next (State.hostWrite { s with inbox := rest } sp ix w) :=
  step_of_inbox h

theorem State.hostWrite_reg_of_none (s : State) {ix : Nat} (w : Word) (h : ix = 1 ∨ 5 ≤ ix) :
    s.hostWrite .reg ix w = s := by
  obtain rfl | h := h
  · rfl
  · obtain ⟨k, rfl⟩ := Nat.exists_eq_add_of_le' h
    rfl

theorem State.hostWrite_sym_of_idle {s : State} {ix : Nat} (w : Word) (hb : s.busy = false) (h : ix < s.nmax) :
    s.hostWrite .sym ix w = s.writeSym ix (symCellOf w) := by
  simp [State.hostWrite, hb, h]

theorem State.symCell_hostWrite_sym {s : State} {ix : Nat} (w : Word) (hb : s.busy = false) (h : ix < s.nmax)
    (p : Nat) : (s.hostWrite .sym ix w).symCell p = if p = ix then symCellOf w else s.symCell p := by
  rw [State.hostWrite_sym_of_idle w hb h, State.symCell_writeSym]

theorem State.hostWrite_sym_of_le {s : State} {ix : Nat} (w : Word) (h : s.nmax ≤ ix) : s.hostWrite .sym ix w = s := by
  simp [State.hostWrite, Nat.not_lt.2 h]

theorem symCellOf_symbol_toNat (w : Word) : (symCellOf w).symbol.toNat = w.toNat % 16 := by
  rw [symCellOf, BitVec.extractLsb'_toNat, Nat.shiftRight_zero]

theorem symCellOf_oor_iff (w : Word) : (symCellOf w).oor = true ↔ 16 ≤ w.toNat := by
  have := w.isLt
  rw [symCellOf, bne_iff_ne, Ne, ← BitVec.toNat_inj, BitVec.extractLsb'_toNat, Nat.shiftRight_eq_div_pow,
    BitVec.toNat_ofNat]
  omega

/-- Settles O33: each space and index by its own arm, those that a busy machine ignores by one lemma. -/
theorem hostWriteStoresOnlyWhileIdle : Obligations.HostWriteStoresOnlyWhileIdle := by
  intro s sp ix w rest h
  have hbusy : s.busy = true → (sp = .reg → ix = 0 → w.getLsbD 1 = false) →
      State.hostWrite { s with inbox := rest } sp ix w = { s with inbox := rest } := fun hb =>
    State.hostWrite_of_busy (s := { s with inbox := rest }) hb
  refine ⟨_, step_hostWrite h, ?_, ?_, ?_, ?_, ?_, ?_, ?_⟩
  · rintro rfl rfl
    rfl
  · rintro rfl hb
    refine ⟨?_, ?_, ?_⟩ <;>
      · rintro rfl
        exact if_neg (Bool.eq_false_iff.1 hb)
  · rintro rfl hix
    exact State.hostWrite_reg_of_none _ w hix
  · intro _ hb hix
    exact hbusy hb fun _ h0 => absurd h0 (by omega)
  · rintro rfl hb hix
    have hcell := State.symCell_hostWrite_sym (s := { s with inbox := rest }) w hb hix
    refine ⟨?_, ?_, fun p hp => (hcell p).trans (if_neg hp), _,
      State.hostWrite_sym_of_idle (s := { s with inbox := rest }) w hb hix⟩
    · rw [State.symAt, hcell, if_pos rfl, symCellOf_symbol_toNat]
    · rw [State.oorAt, hcell, if_pos rfl, symCellOf_oor_iff]
  · rintro rfl (hb | hix)
    · exact hbusy hb nofun
    · exact State.hostWrite_sym_of_le w hix
  · rintro rfl
    rfl

/-! ## Commands -/

theorem step_command {s : State} {w : Word} {rest : List Event} (h : s.inbox = .hostWrite .reg 0 w :: rest) :
    step s = .next (State.command { s with inbox := rest } w) :=
  step_hostWrite h

theorem State.command_of_abort {s : State} {w : Word} (h : w.getLsbD 1 = true) : s.command w = s.abort :=
  if_pos h

theorem State.command_of_start {s : State} {w : Word} (h : w.getLsbD 1 = false) (h0 : w.getLsbD 0 = true) :
    s.command w = s.start :=
  (if_neg (Bool.eq_false_iff.1 h)).trans (if_pos h0)

theorem State.command_of_neither {s : State} {w : Word} (h : w.getLsbD 1 = false) (h0 : w.getLsbD 0 = false) :
    s.command w = s :=
  (if_neg (Bool.eq_false_iff.1 h)).trans (if_neg (Bool.eq_false_iff.1 h0))

theorem State.start_of_busy {s : State} (hb : s.busy = true) : s.start = s :=
  if_pos hb

theorem State.start_of_fails {s : State} (hb : s.busy = false) (hc : s.cfgCheck ≠ 0#4) :
    s.start = s.clearResult.raiseCfgError s.cfgCheck :=
  (if_neg (Bool.eq_false_iff.1 hb)).trans (if_neg hc)

theorem State.start_of_passes {s : State} (hb : s.busy = false) (hc : s.cfgCheck = 0#4) :
    s.start = s.clearResult.beginEncode :=
  (if_neg (Bool.eq_false_iff.1 hb)).trans (if_pos hc)

/-- Settles O35: the command is START or nothing, and START has one arm for each of its three cases. -/
theorem startRaisesOrBegins : Obligations.StartRaisesOrBegins := by
  intro s w rest h hw
  rw [step_command h]
  refine ⟨fun h0 => by rw [State.command_of_neither hw h0], fun h0 => ?_⟩
  rw [State.command_of_start hw h0]
  refine ⟨fun hb => ?_, fun hb hc => ?_, fun hb hc => ?_⟩
  · rw [State.start_of_busy (s := { s with inbox := rest }) hb]
  · rw [State.start_of_fails (s := { s with inbox := rest }) hb hc]
    rfl
  · rw [State.start_of_passes (s := { s with inbox := rest }) hb hc]
    rfl

/-- Settles O36: the command is ABORT, which clears `BUSY` or finds it clear. -/
theorem abortAbandonsTheEncode : Obligations.AbortAbandonsTheEncode := by
  intro s w rest h hw
  rw [step_command h, State.command_of_abort hw]
  exact ⟨fun hb => congrArg Host.Outcome.next (if_pos hb),
    fun hb => congrArg Host.Outcome.next (if_neg (Bool.eq_false_iff.1 hb))⟩

/-- Settles O38: the invariant is kept, and the accepted START sets what `State.Started` asks for. -/
theorem acceptedStartBeginsAnEncode : Obligations.AcceptedStartBeginsAnEncode := by
  intro s w hinv hb hnone hc h hw h0
  obtain ⟨-, hstart⟩ := startRaisesOrBegins s w [] h hw
  obtain ⟨-, -, hbegin⟩ := hstart h0
  have hstep := hbegin hb hc
  exact ⟨_, hstep, ⟨stepKeepsTheInvariant s _ hinv hstep, rfl, rfl, rfl, hnone, rfl⟩, rfl, rfl, rfl, rfl⟩

end Sys2Proof.Machine
end

section
/-! PROOFS. The sequencer family, a disturbed encode: host transactions between the passes of a running encode delay it
and change nothing it computes (46_sequencer_host.md R153, R156; 20_memory.md R63; 70_reset_and_hazards.md R201). -/

namespace Sys2Proof.Machine

/-! ## What a list of passes leaves -/

theorem SameOutside.refl (s : State) : SameOutside s s :=
  ⟨fun _ => rfl, ⟨rfl, rfl, rfl, rfl⟩, rfl, rfl, rfl, rfl⟩

theorem SameOutside.trans {s t u : State} (h : SameOutside s t) (h' : SameOutside t u) : SameOutside s u := by
  obtain ⟨hsym, ⟨hn, hmrn, hmrw, hnmax⟩, hinbox, hanswers, hsupplied, hdraw⟩ := h
  obtain ⟨hsym', ⟨hn', hmrn', hmrw', hnmax'⟩, hinbox', hanswers', hsupplied', hdraw'⟩ := h'
  exact ⟨fun p => (hsym' p).trans (hsym p), ⟨hn'.trans hn, hmrn'.trans hmrn, hmrw'.trans hmrw, hnmax'.trans hnmax⟩,
    hinbox'.trans hinbox, hanswers'.trans hanswers, hsupplied'.trans hsupplied, hdraw'.trans hdraw⟩

theorem runPasses_sameOutside {is : List Instr} {s t : State} (h : runPasses is s = .next t) : SameOutside s t := by
  induction is generalizing s with
  | nil => injection h with h; exact h ▸ .refl s
  | cons i is ih =>
    obtain ⟨m, hm, h⟩ := runPasses_cons_next h
    obtain ⟨hout, -⟩ := onlyTheNamedPassWrites i s m hm
    exact hout.trans (ih h)

/-- `PC` counts the passes. -/
theorem runPasses_pc {is : List Instr} {s t : State} (h : runPasses is s = .next t) :
    t.pc = s.pc + BitVec.ofNat 8 is.length := by
  induction is generalizing s with
  | nil => injection h with h; rw [h, List.length_nil, BitVec.add_zero]
  | cons i is ih =>
    obtain ⟨m, hm, h⟩ := runPasses_cons_next h
    obtain ⟨-, hpc, -⟩ := onlyTheNamedPassWrites i s m hm
    rw [ih h, hpc, List.length_cons, BitVec.ofNat_add, BitVec.add_assoc, BitVec.add_comm 1#8]

theorem runPasses_pc_toNat {is : List Instr} {s t : State} (h : runPasses is s = .next t)
    (hfits : s.pc.toNat + is.length < 256) : t.pc.toNat = s.pc.toNat + is.length := by
  rw [runPasses_pc h, BitVec.toNat_add, BitVec.toNat_ofNat, Nat.add_mod_mod, Nat.mod_eq_of_lt hfits]

/-- A list of passes that ends in FIN leaves what FIN leaves of the state the others leave. -/
theorem runPasses_append_fin_next {is : List Instr} {s u : State} (h : runPasses (is ++ [.fin]) s = .next u) :
    ∃ t, runPasses is s = .next t ∧ u = ((t.setMbytes (t.keepcnt + t.widecnt)).finishFlags).advancePc := by
  obtain ⟨t, ht, h⟩ := runPasses_append_next h
  injection h with h
  exact ⟨t, ht, h.symm⟩

/-- No pass of a list reads or writes the schedule or the answers. -/
theorem runPasses_withPort {is : List Instr} {s t : State} (q : List Event) (r : List Word)
    (h : runPasses is s = .next t) :
    runPasses is { s with inbox := q, answers := r } = .next { t with inbox := q, answers := r } := by
  induction is generalizing s with
  | nil => injection h with h; rw [h]; rfl
  | cons i is ih =>
    obtain ⟨m, hm, h⟩ := runPasses_cons_next h
    rw [runPasses_of_next (exec_withPort q r hm), ih h]

/-! ## One event between the passes -/

theorem Event.isPass_iff {e : Event} : e.isPass = true ↔ e = .pass := by
  cases e <;> simp [Event.isPass]

/-- A host transaction that is no ABORT leaves a busy machine as it was, but for the answer. -/
theorem step_of_harmless {s : State} {e : Event} {q : List Event} (h : s.inbox = e :: q) (hb : s.busy = true)
    (hharmless : e.harmless = true) (hpass : e.isPass = false) :
    ∃ r, step s = .next { s with inbox := q, answers := r } := by
  cases e with
  | pass => cases hpass
  | reset => cases hharmless
  | hostRead sp ix => exact ⟨_, step_hostRead h⟩
  | hostWrite sp ix w =>
    have hnoAbort : sp = .reg → ix = 0 → w.getLsbD 1 = false := by
      rintro rfl rfl
      exact Bool.not_eq_true' _ ▸ hharmless
    exact ⟨s.answers, (step_hostWrite h).trans
      (congrArg _ (State.hostWrite_of_busy (s := { s with inbox := q }) hb hnoAbort))⟩

/-- A turn in the schedule runs the next pass. -/
theorem State.Running.step_of_turn {s t : State} {i : Instr} {is : List Instr} (h : s.Running (i :: is))
    (hx : exec i s = .next t) (q : List Event) (r : List Word) :
    step { s with inbox := .pass :: q, answers := r } = .next { t with inbox := q, answers := r } := by
  have hword : (progOf (clog2 s.n.toNat))[s.pc.toNat]? = some (encode i) := by
    have h0 := congrArg (·[0]?) h.rest
    simpa [List.getElem?_drop] using h0
  have hdecode := decode_encode (h.legal i (List.mem_cons_self ..))
  obtain ⟨hprogram, -⟩ := stepRunsTheDecodedPass { s with inbox := .pass :: q, answers := r } _ i hdecode
  obtain ⟨-, hturn⟩ := hprogram h.busy h.noWords h.lanes hword
  exact (hturn q rfl).trans (exec_withPort (s := s) q r hx)

theorem State.Running.withAnswers {s : State} {is : List Instr} (h : s.Running is) (r : List Word) :
    State.Running { s with inbox := [], answers := r } is :=
  ⟨h.busy, rfl, h.noWords, h.lanes, h.rest, h.fits, h.legal⟩

/-- With a schedule that leaves at least the last pass to the sequencer, the machine runs the passes and takes the
transactions, and ends as the undisturbed passes end, but for the answers. -/
theorem State.Running.run_withPort {s u : State} {body : List Instr} {q : List Event} (r : List Word)
    (h : s.Running (body ++ [.fin])) (hbody : ∀ i ∈ body, i ≠ .fin) (hu : runPasses (body ++ [.fin]) s = .next u)
    (hq : ∀ e ∈ q, e.harmless = true) (hturns : (q.filter Event.isPass).length ≤ body.length) :
    ∃ r', Host.Core.run Sys2Proof.core (body.length + 1 + (q.filter fun e => !e.isPass).length)
      { s with inbox := q, answers := r } = .next { u with inbox := [], answers := r' } := by
  induction q generalizing s body r with
  | nil => exact ⟨r, ((h.withAnswers r).run_eq_runPasses hbody).trans (runPasses_withPort [] r hu)⟩
  | cons e q ih =>
    have hq' : ∀ e ∈ q, e.harmless = true := fun e he => hq e (List.mem_cons_of_mem _ he)
    cases hpass : e.isPass with
    | false =>
      obtain ⟨r₁, hstep⟩ := step_of_harmless (s := { s with inbox := e :: q, answers := r }) rfl h.busy
        (hq e (List.mem_cons_self ..)) hpass
      obtain ⟨r', hrun⟩ := ih r₁ h hbody hu hq' (by simpa [hpass] using hturns)
      refine ⟨r', ?_⟩
      simp only [List.filter_cons, hpass, Bool.not_false, if_true, List.length_cons, ← Nat.add_assoc]
      exact (core_run_of_next hstep).trans hrun
    | true =>
      rw [List.filter_cons_of_pos hpass, List.length_cons] at hturns
      have hcount : (e :: q).filter (fun e => !e.isPass) = q.filter fun e => !e.isPass :=
        List.filter_cons_of_neg (by simp [hpass])
      cases body with
      | nil => exact absurd hturns (Nat.not_succ_le_zero _)
      | cons i body =>
        obtain ⟨t, hx, hu⟩ := runPasses_cons_next hu
        have ht := State.Running.exec_next h (hbody i (List.mem_cons_self ..)) hx
        obtain ⟨r', hrun⟩ := ih r ht (fun j hj => hbody j (List.mem_cons_of_mem _ hj)) hu hq'
          (Nat.le_of_succ_le_succ hturns)
        rw [hcount, List.length_cons, Nat.add_right_comm (_ + 1), Event.isPass_iff.1 hpass]
        exact ⟨r', (core_run_of_next (State.Running.step_of_turn h hx q r)).trans hrun⟩

/-! ## The rest of a running encode -/

theorem State.Canonical.running {s : State} (h : s.Canonical) (hb : s.busy = true) :
    State.Running { s with inbox := [] } ((progBody (clog2 s.n.toNat)).drop s.pc.toNat ++ [.fin]) := by
  have hsize := h.inv.sizeOk hb
  have hl := hsize.clog2_n_le
  have hpc := h.pcIn hb
  have hin : s.pc.toNat ≤ (progBody (clog2 s.n.toNat)).length := by
    rw [progBody_length]
    omega
  refine ⟨hb, rfl, h.noWords, hsize.n_ne_zero, ?_, ?_, fun i hi => ?_⟩
  · show (progOf (clog2 s.n.toNat)).drop s.pc.toNat = _
    rw [progOf_eq_map_encode (by omega), ← List.map_drop, List.drop_append_of_le_length hin]
  · rw [List.length_append, List.length_drop, progBody_length]
    show s.pc.toNat + (_ + 1) < 256
    omega
  · rcases List.mem_append.1 hi with hi | hi
    · exact (progBody_wellFormed (hl.trans (by decide)) i (List.mem_of_mem_drop hi)).1
    · rw [List.mem_singleton.1 hi]; rfl

/-- The passes that remain do not stop: either RLI is to come, or the gathers are in range. -/
theorem State.Canonical.rest_answers {s : State} (h : s.Canonical) (hb : s.busy = true) :
    ∃ u, runPasses ((progBody (clog2 s.n.toNat)).drop s.pc.toNat ++ [.fin]) { s with inbox := [] } = .next u := by
  refine runPasses_answers (s := { s with inbox := [] }) (h.inv.sizeOk hb) ?_ (h.running hb).legal
  rcases Nat.eq_zero_or_pos s.pc.toNat with hzero | hpos
  · rw [hzero]
    exact .inl rfl
  · exact .inr (h.gathers hb hpos)

/-- Settles O48: the transactions between the passes are taken off the schedule one by one, and the passes read neither
the schedule nor the answers. -/
theorem encodeFinishesUnderHarmlessTransactions : Obligations.EncodeFinishesUnderHarmlessTransactions := by
  intro s h hb hq hturns
  have hrun := h.running hb
  have hpc := h.pcIn hb
  have hl := (h.inv.sizeOk hb).clog2_n_le
  have hlength : ((progBody (clog2 s.n.toNat)).drop s.pc.toNat).length + 1 = 5 * clog2 s.n.toNat + 7 - s.pc.toNat := by
    rw [List.length_drop, progBody_length]
    omega
  have hbody : ∀ i ∈ (progBody (clog2 s.n.toNat)).drop s.pc.toNat, i ≠ .fin := fun i hi =>
    (progBody_wellFormed (hl.trans (by decide)) i (List.mem_of_mem_drop hi)).2
  obtain ⟨u, hu⟩ := h.rest_answers hb
  obtain ⟨r, hdisturbed⟩ := hrun.run_withPort s.answers hbody hu hq (by omega)
  have halone := (hrun.run_eq_runPasses hbody).trans hu
  have hpcNat := runPasses_pc_toNat hu hrun.fits
  have hinbox := (runPasses_sameOutside hu).models.1
  obtain ⟨v, -, hfin⟩ := runPasses_append_fin_next hu
  rw [hlength] at hdisturbed halone
  refine ⟨_, u, hdisturbed, ?_, ?_, ?_, rfl, halone, fun _ _ => rfl, rfl, rfl, rfl, rfl, ?_⟩
  · rw [hfin]; rfl
  · rw [hfin]; rfl
  · rw [List.length_append, List.length_singleton, hlength] at hpcNat
    exact hpcNat.trans (Nat.add_sub_cancel' hpc.le)
  · exact congrArg (fun q => { u with inbox := q, answers := r }) hinbox.symm

end Sys2Proof.Machine
end

section
/-! PROOFS. The sequencer family, the reference: `RLEREF` (46_sequencer_host.md R156) as a greedy list of chunks, and
what the decoder oracle reads back from it (R157). -/

namespace Sys2Proof.Machine

/-! ## Chunks -/

/-- The symbols a chunk stands for. -/
def chunkSymbols (c : Symbol × Nat) : List Symbol := List.replicate c.2 c.1

/-- The chunks of a symbol sequence in which a chunk is followed by one of its own symbol only when it is full: what a
sequential encoder does, with `longest` the maximum run of a symbol (R156; 42_segmenter.md R111). -/
structure GreedyChunks (longest : Symbol → Nat) (xs : List Symbol) (cs : List (Symbol × Nat)) : Prop where
  expands : cs.flatMap chunkSymbols = xs
  lengths : ∀ c ∈ cs, 1 ≤ c.2 ∧ c.2 ≤ longest c.1
  greedy  : cs.IsChain fun c d => c.1 = d.1 → c.2 = longest c.1

/-- How the maximal runs grow by a symbol on their left: it is the only one, or it joins the first run, or it starts a
run of its own. -/
theorem maximalRuns_cons_cases (x : Symbol) (xs : List Symbol) :
    (maximalRuns xs = [] ∧ maximalRuns (x :: xs) = [(x, 1)]) ∨
    (∃ k more, maximalRuns xs = (x, k) :: more ∧ maximalRuns (x :: xs) = (x, k + 1) :: more) ∨
    (∃ y k more, x ≠ y ∧ maximalRuns xs = (y, k) :: more ∧ maximalRuns (x :: xs) = (x, 1) :: (y, k) :: more) := by
  rw [maximalRuns]
  split
  · exact .inl ⟨‹_›, rfl⟩
  · next y k more h =>
    by_cases hxy : x = y
    · subst hxy
      exact .inr (.inl ⟨k, more, h, if_pos rfl⟩)
    · exact .inr (.inr ⟨y, k, more, hxy, h, if_neg hxy⟩)

theorem maximalRuns_expands (xs : List Symbol) : (maximalRuns xs).flatMap chunkSymbols = xs := by
  induction xs with
  | nil => rfl
  | cons x xs ih =>
    obtain ⟨h, h'⟩ | ⟨k, more, h, h'⟩ | ⟨y, k, more, -, h, h'⟩ := maximalRuns_cons_cases x xs <;>
      rw [h'] <;> rw [h] at ih <;> subst ih <;> rfl

theorem maximalRuns_lengths (xs : List Symbol) : ∀ r ∈ maximalRuns xs, 1 ≤ r.2 := by
  induction xs with
  | nil => exact fun r hr => absurd hr List.not_mem_nil
  | cons x xs ih =>
    obtain ⟨-, h'⟩ | ⟨k, more, h, h'⟩ | ⟨y, k, more, -, h, h'⟩ := maximalRuns_cons_cases x xs <;> rw [h']
    · simp
    · rw [h, List.forall_mem_cons] at ih
      exact List.forall_mem_cons.2 ⟨Nat.le_add_left _ _, ih.2⟩
    · rw [h] at ih
      exact List.forall_mem_cons.2 ⟨le_rfl, ih⟩

/-- Neighbouring maximal runs hold different symbols. -/
theorem maximalRuns_isChain (xs : List Symbol) : (maximalRuns xs).IsChain fun r r' => r.1 ≠ r'.1 := by
  induction xs with
  | nil => exact .nil
  | cons x xs ih =>
    obtain ⟨-, h'⟩ | ⟨k, more, h, h'⟩ | ⟨y, k, more, hxy, h, h'⟩ := maximalRuns_cons_cases x xs <;> rw [h']
    · exact .singleton _
    · rw [h, List.isChain_cons] at ih
      exact List.isChain_cons.2 ih
    · rw [h] at ih
      exact List.isChain_cons_cons.2 ⟨hxy, ih⟩

/-! ## The chunks of a run -/

section
variable {m fuel l : Nat}

theorem cutRun_zero (m fuel : Nat) : cutRun m fuel 0 = [] := by
  cases fuel <;> rfl

theorem cutRun_succ (m fuel : Nat) (hl : l ≠ 0) :
    cutRun m (fuel + 1) l = min m l :: cutRun m fuel (l - min m l) :=
  if_neg hl

theorem cutRun_sum (hm : 1 ≤ m) (hl : l ≤ fuel) : (cutRun m fuel l).sum = l := by
  induction fuel generalizing l with
  | zero => rw [Nat.le_zero.1 hl]; rfl
  | succ fuel ih =>
    rcases Nat.eq_zero_or_pos l with rfl | hpos
    · rw [cutRun_zero]; rfl
    · rw [cutRun_succ m fuel hpos.ne', List.sum_cons, ih (by omega)]
      omega

theorem cutRun_lengths (hm : 1 ≤ m) : ∀ c ∈ cutRun m fuel l, 1 ≤ c ∧ c ≤ m := by
  induction fuel generalizing l with
  | zero => exact fun c hc => absurd hc List.not_mem_nil
  | succ fuel ih =>
    rcases Nat.eq_zero_or_pos l with rfl | hpos
    · rw [cutRun_zero]
      exact fun c hc => absurd hc List.not_mem_nil
    · rw [cutRun_succ m fuel hpos.ne']
      exact List.forall_mem_cons.2 ⟨by omega, ih⟩

/-- All chunks of a run but the last are full. -/
theorem cutRun_isChain (m fuel l : Nat) : (cutRun m fuel l).IsChain fun c _ => c = m := by
  induction fuel generalizing l with
  | zero => exact .nil
  | succ fuel ih =>
    rcases Nat.eq_zero_or_pos l with rfl | hpos
    · rw [cutRun_zero]
      exact .nil
    · rw [cutRun_succ m fuel hpos.ne']
      refine List.isChain_cons.2 ⟨fun d hd => ?_, ih _⟩
      by_contra hne
      have hrest : l - min m l = 0 := by omega
      rw [hrest, cutRun_zero] at hd
      cases hd

theorem cutRun_ne_nil (m : Nat) (hl : 1 ≤ l) : cutRun m l l ≠ [] := by
  obtain ⟨k, rfl⟩ := Nat.exists_eq_add_of_le' hl
  rw [cutRun_succ m k (Nat.succ_ne_zero k)]
  exact List.cons_ne_nil _ _

end

/-- Chunks of one symbol stand for as many of it as their lengths add up to. -/
theorem flatMap_chunkSymbols_map (x : Symbol) (lens : List Nat) :
    (lens.map fun len => (x, len)).flatMap chunkSymbols = List.replicate lens.sum x := by
  induction lens with
  | nil => rfl
  | cons len lens ih =>
    rw [List.map_cons, List.flatMap_cons, ih, List.sum_cons, List.replicate_add]
    rfl

/-- `RLEREF`'s chunks are greedy: each run is cut into full chunks and a rest, and the next run holds another symbol. -/
theorem refChunks_greedy {mrn mrw : Nat} (hm : ∀ x, 1 ≤ longest mrn mrw x) (xs : List Symbol) :
    GreedyChunks (longest mrn mrw) xs (refChunks xs mrn mrw) := by
  have hruns := maximalRuns_lengths xs
  refine ⟨?_, fun c hc => ?_, ?_⟩
  · have hpiece : ∀ r : Symbol × Nat, ((cutRun (longest mrn mrw r.1) r.2 r.2).map fun len => (r.1, len)).flatMap
        chunkSymbols = chunkSymbols r := fun r => by
      rw [flatMap_chunkSymbols_map, cutRun_sum (hm r.1) le_rfl]
      rfl
    rw [refChunks, List.flatMap_assoc]
    simp only [hpiece]
    exact maximalRuns_expands xs
  · obtain ⟨r, -, hc⟩ := List.mem_flatMap.1 hc
    obtain ⟨len, hlen, rfl⟩ := List.mem_map.1 hc
    exact cutRun_lengths (hm r.1) len hlen
  · rw [refChunks, List.flatMap_def, List.isChain_flatten]
    · refine ⟨fun piece hpiece => ?_, (List.isChain_map _).2 ((maximalRuns_isChain xs).imp fun r r' hne => ?_)⟩
      · obtain ⟨r, -, rfl⟩ := List.mem_map.1 hpiece
        exact (List.isChain_map _).2 ((cutRun_isChain (longest mrn mrw r.1) r.2 r.2).imp fun len _ hfull _ => hfull)
      · intro c hc d hd hsame
        obtain ⟨_, -, rfl⟩ := List.mem_map.1 (List.mem_of_mem_getLast? hc)
        obtain ⟨_, -, rfl⟩ := List.mem_map.1 (List.mem_of_mem_head? hd)
        exact absurd hsame hne
    · intro hnil
      obtain ⟨r, hr, hempty⟩ := List.mem_map.1 hnil
      exact cutRun_ne_nil _ (hruns r hr) (List.map_eq_nil_iff.1 hempty)

/-! ## The decoder oracle on the reference's bytes (95_test_vectors.md section 2) -/

/-- What the oracle reads from a byte made of a symbol and four bits of a length. -/
theorem extract_ofNat_byte (x : Symbol) {k : Nat} (hk : k < 16) :
    (BitVec.ofNat 8 (x.toNat * 16 + k)).extractLsb' 4 4 = x ∧
    ((BitVec.ofNat 8 (x.toNat * 16 + k)).extractLsb' 0 4).toNat = k := by
  have hx := x.isLt
  refine ⟨BitVec.eq_of_toNat_eq ?_, ?_⟩ <;>
    rw [BitVec.extractLsb'_toNat, BitVec.toNat_ofNat, Nat.shiftRight_eq_div_pow] <;> omega

/-- A chunk whose length its bytes have room for (20_memory.md R56): four bits if narrow, twelve if wide. -/
abbrev FitsBytes (c : Symbol × Nat) : Prop := c.2 ≤ longest 15 4095 c.1

theorem streamChunks_cons_of_narrow {x : Byte} (rest : List Byte) (h : isWide (x.extractLsb' 4 4) = false) :
    streamChunks (x :: rest) = (x.extractLsb' 4 4, (x.extractLsb' 0 4).toNat) :: streamChunks rest := by
  rw [streamChunks.eq_def]
  simp only [h, Bool.false_eq_true, if_false]

theorem streamChunks_cons_of_wide {x : Byte} (y : Byte) (rest : List Byte)
    (h : isWide (x.extractLsb' 4 4) = true) :
    streamChunks (x :: y :: rest) =
      (x.extractLsb' 4 4, (x.extractLsb' 0 4).toNat * 256 + y.toNat) :: streamChunks rest := by
  rw [streamChunks.eq_def]
  simp only [h, if_true]

theorem streamChunks_chunkBytes_append {c : Symbol × Nat} (hc : FitsBytes c) (rest : List Byte) :
    streamChunks (chunkBytes c ++ rest) = c :: streamChunks rest := by
  obtain ⟨x, len⟩ := c
  unfold FitsBytes longest at hc
  unfold chunkBytes
  cases hw : isWide x with
  | true =>
    simp only [hw, if_true] at hc ⊢
    obtain ⟨hsym, hhigh⟩ := extract_ofNat_byte x (k := len / 256) (by omega)
    have hlow : (BitVec.ofNat 8 (len % 256)).toNat = len % 256 := Nat.mod_eq_of_lt (Nat.mod_lt _ (by decide))
    rw [List.cons_append, List.cons_append, List.nil_append, streamChunks_cons_of_wide _ _ (hsym.symm ▸ hw), hsym,
      hhigh, hlow, Nat.mul_comm, Nat.div_add_mod]
  | false =>
    simp only [hw, Bool.false_eq_true, if_false] at hc ⊢
    obtain ⟨hsym, hlen⟩ := extract_ofNat_byte x (k := len) (by omega)
    rw [List.cons_append, List.nil_append, streamChunks_cons_of_narrow _ (hsym.symm ▸ hw), hsym, hlen]

/-- The oracle reads the chunks back. -/
theorem streamChunks_flatMap_chunkBytes {cs : List (Symbol × Nat)} (h : ∀ c ∈ cs, FitsBytes c) :
    streamChunks (cs.flatMap chunkBytes) = cs := by
  induction cs with
  | nil => rfl
  | cons c cs ih =>
    obtain ⟨hc, hcs⟩ := List.forall_mem_cons.1 h
    rw [List.flatMap_cons, streamChunks_chunkBytes_append hc, ih hcs]

theorem chunkBytes_length (c : Symbol × Nat) : (chunkBytes c).length = 1 + (isWide c.1).toNat := by
  unfold chunkBytes
  cases isWide c.1 <;> rfl

/-- A byte for each narrow chunk and two for each wide one (45_packer.md R141). -/
theorem flatMap_chunkBytes_length (cs : List (Symbol × Nat)) :
    (cs.flatMap chunkBytes).length =
      (cs.filter fun c => !isWide c.1).length + 2 * (cs.filter fun c => isWide c.1).length := by
  induction cs with
  | nil => rfl
  | cons c cs ih =>
    rw [List.flatMap_cons, List.length_append, ih, chunkBytes_length, List.filter_cons, List.filter_cons]
    cases isWide c.1 <;> simp <;> omega

end Sys2Proof.Machine
end

section
/-! PROOFS. The sequencer family, where chunks lie: the lanes at which a greedy list of chunks begins are those the
segmenter marks (42_segmenter.md R111), and the bytes of a chunk begin at its slot's place (44_expander.md R131). -/

namespace Sys2Proof.Machine

/-! ## Run offsets -/

/-- How far lane `p` is into its run of identical symbols. -/
def runOffset (sym : Nat → Symbol) : Nat → Nat
  | 0 => 0
  | p + 1 => if sym (p + 1) = sym p then runOffset sym p + 1 else 0

/-- Lane `p` is a chunk start of R111: its offset in its run is a multiple of the maximum run of its symbol. -/
def startsChunk (sym : Nat → Symbol) (longest : Symbol → Nat) (p : Nat) : Bool :=
  decide (longest (sym p) ∣ runOffset sym p)

theorem runOffset_le (sym : Nat → Symbol) (p : Nat) : runOffset sym p ≤ p := by
  induction p with
  | zero => exact le_rfl
  | succ p ih =>
    unfold runOffset
    split <;> omega

theorem runOffset_succ_of_eq {sym : Nat → Symbol} {p : Nat} (h : sym (p + 1) = sym p) :
    runOffset sym (p + 1) = runOffset sym p + 1 :=
  if_pos h

theorem runOffset_succ_of_ne {sym : Nat → Symbol} {p : Nat} (h : sym (p + 1) ≠ sym p) : runOffset sym (p + 1) = 0 :=
  if_neg h

/-- The run of lane `p` starts as many lanes to its left as its offset says. -/
theorem State.inRunFrom_runOffset (s : State) (p : Nat) : s.InRunFrom (p - runOffset s.symAt p) p := by
  induction p with
  | zero => exact s.inRunFrom_zero
  | succ p ih =>
    have hle := runOffset_le s.symAt p
    by_cases hsame : s.symAt (p + 1) = s.symAt p
    · rw [runOffset_succ_of_eq hsame, Nat.add_sub_add_right]
      obtain ⟨-, hrun, hstart⟩ := ih
      refine ⟨by omega, fun q hq hqp => ?_, hstart⟩
      rcases Nat.lt_or_ge p q with hlt | hge
      · rw [Nat.le_antisymm hqp hlt]
      · rw [hrun q hq hge, hsame]
    · rw [runOffset_succ_of_ne hsame, Nat.sub_zero]
      refine ⟨le_rfl, fun q hq hqp => by rw [Nat.le_antisymm hqp hq], .inr ?_⟩
      exact fun h => hsame h.symm

/-! ## The lanes where chunks start -/

/-- The lane at which chunk `j` starts. -/
abbrev chunkStart (cs : List (Symbol × Nat)) (j : Nat) : Nat := pieceStart chunkSymbols cs j

section
variable {sym : Nat → Symbol} {longest : Symbol → Nat} {n j d : Nat} {cs : List (Symbol × Nat)}

theorem chunkStart_succ (hj : j < cs.length) : chunkStart cs (j + 1) = chunkStart cs j + cs[j].2 := by
  rw [chunkStart, pieceStart_succ _ _ hj, chunkSymbols, List.length_replicate]

variable (hg : GreedyChunks longest ((List.range n).map sym) cs)
include hg

theorem GreedyChunks.chunkStart_length : chunkStart cs cs.length = n := by
  rw [chunkStart, pieceStart_length, hg.expands, List.length_map, List.length_range]

/-- The lanes of a chunk are lanes of the sequence and hold its symbol. -/
theorem GreedyChunks.symbol (hj : j < cs.length) (hd : d < cs[j].2) :
    chunkStart cs j + d < n ∧ sym (chunkStart cs j + d) = cs[j].1 := by
  have hlength : (chunkSymbols cs[j]).length = cs[j].2 := List.length_replicate
  have h := getElem?_flatMap_pieceStart chunkSymbols cs hj (hlength.symm ▸ hd)
  rw [hg.expands, chunkSymbols, List.getElem?_replicate_of_lt hd] at h
  obtain ⟨hlt, hsym⟩ := List.getElem?_eq_some_iff.1 h
  rw [List.length_map, List.length_range] at hlt
  rw [List.getElem_map, List.getElem_range] at hsym
  exact ⟨hlt, hsym⟩

theorem GreedyChunks.length_pos (hj : j < cs.length) : 1 ≤ cs[j].2 :=
  (hg.lengths _ (List.getElem_mem hj)).1

theorem GreedyChunks.symbol_start (hj : j < cs.length) : sym (chunkStart cs j) = cs[j].1 :=
  (hg.symbol (d := 0) hj (hg.length_pos hj)).2

theorem GreedyChunks.chunkStart_lt (hj : j < cs.length) : chunkStart cs j < n :=
  (hg.symbol (d := 0) hj (hg.length_pos hj)).1

/-- Within a chunk the offset grows with the lane. -/
theorem GreedyChunks.runOffset_add (hj : j < cs.length) (hd : d < cs[j].2) :
    runOffset sym (chunkStart cs j + d) = runOffset sym (chunkStart cs j) + d := by
  induction d with
  | zero => rfl
  | succ d ih =>
    have hsame : sym (chunkStart cs j + d + 1) = sym (chunkStart cs j + d) :=
      (hg.symbol hj hd).2.trans (hg.symbol hj (Nat.lt_of_succ_lt hd)).2.symm
    rw [← Nat.add_assoc, runOffset_succ_of_eq hsame, ih (Nat.lt_of_succ_lt hd), Nat.add_assoc]

/-- A chunk starts at a multiple of its symbol's maximum run: it starts a run, or follows a full chunk of its run. -/
theorem GreedyChunks.dvd_runOffset (hj : j < cs.length) : longest cs[j].1 ∣ runOffset sym (chunkStart cs j) := by
  induction j with
  | zero => exact ⟨0, rfl⟩
  | succ j ih =>
    have hj' : j < cs.length := Nat.lt_of_succ_lt hj
    have hpos := hg.length_pos hj'
    have hlast : cs[j].2 - 1 < cs[j].2 := Nat.sub_one_lt_of_lt hpos
    have hstart : chunkStart cs (j + 1) = chunkStart cs j + (cs[j].2 - 1) + 1 := by
      rw [chunkStart_succ hj']
      omega
    have hsym := hg.symbol_start hj
    have hbefore := (hg.symbol hj' hlast).2
    rw [hstart] at hsym ⊢
    by_cases hsame : cs[j].1 = cs[j + 1].1
    · have hfull : cs[j].2 = longest cs[j].1 := List.isChain_iff_getElem.1 hg.greedy j hj hsame
      rw [runOffset_succ_of_eq (by rw [hsym, hbefore, hsame]), hg.runOffset_add hj' hlast, Nat.add_assoc,
        Nat.sub_add_cancel hpos, hfull, ← hsame]
      exact (ih hj').add dvd_rfl
    · rw [runOffset_succ_of_ne (by rw [hsym, hbefore]; exact Ne.symm hsame)]
      exact dvd_zero _

/-- Of the lanes of a chunk only the first is a chunk start: a chunk is no longer than the maximum run. -/
theorem GreedyChunks.startsChunk_iff (hj : j < cs.length) (hd : d < cs[j].2) :
    startsChunk sym longest (chunkStart cs j + d) = true ↔ d = 0 := by
  have hmax := (hg.lengths _ (List.getElem_mem hj)).2
  rw [startsChunk, decide_eq_true_eq, (hg.symbol hj hd).2, hg.runOffset_add hj hd,
    ← Nat.dvd_add_iff_right (hg.dvd_runOffset hj)]
  exact ⟨fun h => Nat.eq_zero_of_dvd_of_lt h (hd.trans_le hmax), fun h => h ▸ dvd_zero _⟩

theorem GreedyChunks.startsChunk_start (hj : j < cs.length) : startsChunk sym longest (chunkStart cs j) = true :=
  (hg.startsChunk_iff (d := 0) hj (hg.length_pos hj)).2 rfl

/-- Before chunk `j` there are `j` chunk starts. -/
theorem GreedyChunks.count_startsChunk (hj : j ≤ cs.length) :
    Nat.count (fun p => startsChunk sym longest p = true) (chunkStart cs j) = j := by
  induction j with
  | zero => rfl
  | succ j ih =>
    obtain ⟨len, hlen⟩ := Nat.exists_eq_add_of_le' (hg.length_pos hj)
    have hlane : ∀ d, d < len + 1 → (startsChunk sym longest (chunkStart cs j + d) = true ↔ d = 0) := fun d hd =>
      hg.startsChunk_iff hj (hlen ▸ hd)
    have hothers : ∀ d, d < len → ¬startsChunk sym longest (chunkStart cs j + (d + 1)) = true := fun d hd =>
      mt (hlane _ (Nat.succ_lt_succ hd)).1 (Nat.succ_ne_zero d)
    rw [chunkStart_succ hj, hlen, Nat.count_add, ih (Nat.le_of_succ_le hj), Nat.count_succ',
      Nat.count_of_forall_not hothers, if_pos ((hlane 0 (Nat.succ_pos len)).2 rfl)]

theorem GreedyChunks.keptUpTo_chunkStart (hj : j < cs.length) :
    keptUpTo (startsChunk sym longest) (chunkStart cs j) = j + 1 := by
  rw [keptUpTo, Nat.count_succ, hg.count_startsChunk hj.le, if_pos (hg.startsChunk_start hj)]

/-- There are as many chunk starts as chunks. -/
theorem GreedyChunks.keptUpTo_last (hn : 1 ≤ n) : keptUpTo (startsChunk sym longest) (n - 1) = cs.length := by
  rw [keptUpTo, Nat.sub_add_cancel hn, ← hg.count_startsChunk le_rfl, hg.chunkStart_length]

theorem GreedyChunks.length_le : cs.length ≤ n := by
  have h := hg.count_startsChunk le_rfl
  rw [hg.chunkStart_length] at h
  exact h ▸ Nat.count_le _

theorem GreedyChunks.one_le_length (hn : 1 ≤ n) : 1 ≤ cs.length := by
  by_contra h
  have hzero : cs.length = 0 := by omega
  have hstart := hg.chunkStart_length
  rw [hzero, chunkStart, pieceStart_zero] at hstart
  omega

end

/-! ## The slots where the bytes of a chunk start -/

/-- Chunk `j` is wide; beyond the last chunk none is. -/
def wideChunk (cs : List (Symbol × Nat)) (j : Nat) : Bool := cs[j]?.any fun c => isWide c.1

section
variable {cs : List (Symbol × Nat)} {j : Nat}

theorem wideChunk_of_lt (hj : j < cs.length) : wideChunk cs j = isWide cs[j].1 := by
  rw [wideChunk, List.getElem?_eq_getElem hj, Option.any_some]

theorem wideChunk_of_le (hj : cs.length ≤ j) : wideChunk cs j = false := by
  rw [wideChunk, List.getElem?_eq_none hj, Option.any_none]

theorem pieceStart_chunkBytes (hj : j ≤ cs.length) :
    pieceStart chunkBytes cs j = j + widesBefore (wideChunk cs) j := by
  induction j with
  | zero => rfl
  | succ j ih =>
    rw [pieceStart_succ _ _ hj, ih (Nat.le_of_succ_le hj), chunkBytes_length, widesBefore_succ, wideChunk_of_lt hj]
    omega

theorem widesBefore_of_le (hj : cs.length ≤ j) :
    widesBefore (wideChunk cs) j = widesBefore (wideChunk cs) cs.length := by
  obtain ⟨k, rfl⟩ := Nat.exists_eq_add_of_le hj
  have hnone : ∀ d, d < k → ¬wideChunk cs (cs.length + d) = true := fun d _ => by
    rw [wideChunk_of_le (Nat.le_add_right _ d)]
    exact Bool.false_ne_true
  rw [widesBefore, Nat.count_add, Nat.count_of_forall_not hnone]
  rfl

/-- As many bytes as chunks and wide chunks (45_packer.md R141). -/
theorem length_flatMap_chunkBytes (cs : List (Symbol × Nat)) :
    (cs.flatMap chunkBytes).length = cs.length + widesBefore (wideChunk cs) cs.length := by
  rw [← pieceStart_length, pieceStart_chunkBytes le_rfl]

theorem widesBefore_length (cs : List (Symbol × Nat)) :
    widesBefore (wideChunk cs) cs.length = (cs.filter fun c => isWide c.1).length := by
  have hbytes := length_flatMap_chunkBytes cs
  have hsplit := List.length_eq_length_filter_add (l := cs) fun c => isWide c.1
  rw [flatMap_chunkBytes_length] at hbytes
  omega

end

end Sys2Proof.Machine
end

section
/-! PROOFS. The sequencer family, the encode: the stages of `PROG(N)` one after another, from the symbols to the packed
bytes (46_sequencer_host.md R156), and the round trip (R157). -/

namespace Sys2Proof.Machine

/-! ## What stays the same along a run -/

section
variable {s t : State}

theorem SameOutside.symAt (h : SameOutside s t) (p : Nat) : t.symAt p = s.symAt p :=
  State.symAt_eq_of_symCell (h.sym p)

theorem SameOutside.sizeOk (h : SameOutside s t) (hs : s.SizeOk) : t.SizeOk := by
  obtain ⟨hn, -, -, hnmax⟩ := h.config
  unfold State.SizeOk
  rwa [hn, hnmax]

theorem SameOutside.maxRun (h : SameOutside s t) (x : Symbol) : t.maxRun x = s.maxRun x := by
  obtain ⟨-, hmrn, hmrw, -⟩ := h.config
  rw [State.maxRun, State.maxRun, hmrn, hmrw]

theorem ScalarFrame.front (h : ScalarFrame s t) (p : Nat) : t.front p = s.front p := by
  obtain ⟨hcur, hlane⟩ := h.banks
  rw [State.front, hcur, hlane]
  rfl

/-- Only RDK writes `KEEPCNT` and `REPEATCNT`. -/
theorem runPasses_keepCounts {is : List Instr} (h : runPasses is s = .next t) (hno : .rdk ∉ is) :
    t.keepcnt = s.keepcnt ∧ t.repeatcnt = s.repeatcnt := by
  induction is generalizing s with
  | nil => injection h with h; exact h ▸ ⟨rfl, rfl⟩
  | cons i is ih =>
    obtain ⟨hi, hno⟩ := not_or.1 (mt List.mem_cons.2 hno)
    obtain ⟨m, hm, h⟩ := runPasses_cons_next h
    obtain ⟨-, -, -, hcounts, -⟩ := onlyTheNamedPassWrites i s m hm
    obtain ⟨hkeep, hrep⟩ := hcounts (Ne.symm hi)
    rw [← hkeep, ← hrep]
    exact ih h hno

/-- Only RDW writes `WIDECNT`. -/
theorem runPasses_widecnt {is : List Instr} (h : runPasses is s = .next t) (hno : .rdw ∉ is) :
    t.widecnt = s.widecnt := by
  induction is generalizing s with
  | nil => injection h with h; rw [h]
  | cons i is ih =>
    obtain ⟨hi, hno⟩ := not_or.1 (mt List.mem_cons.2 hno)
    obtain ⟨m, hm, h⟩ := runPasses_cons_next h
    obtain ⟨-, -, -, -, hcount, -⟩ := onlyTheNamedPassWrites i s m hm
    rw [ih h hno, hcount (Ne.symm hi)]

/-- The front lanes from `N` up to `2N` are EMPTY, as every source-domain pass leaves them (20_memory.md R54). -/
abbrev State.AboveEmpty (s : State) : Prop := ∀ p, s.n.toNat ≤ p → p < 2 * s.n.toNat → s.front p = Lane.empty

/-- A scan step leaves them EMPTY too where it has them so. -/
theorem runPasses_scn_aboveEmpty {l : Nat} (h : runPasses (ascending .scn l) s = .next t) (ha : s.AboveEmpty) :
    t.AboveEmpty := by
  induction l generalizing t with
  | zero => injection h with h; exact h ▸ ha
  | succ l ih =>
    rw [ascending_succ] at h
    obtain ⟨m, hm, h⟩ := runPasses_append_next h
    obtain ⟨v, hv, h⟩ := runPasses_cons_next h
    injection h with h
    subst h
    intro p hp hlanes
    rw [(exec_n_nmax hv).1] at hp hlanes
    exact (exec_front hv hlanes).trans (if_neg (Nat.not_lt.2 hp))

end

/-! ## A scan of flags -/

section
variable {u : State} {f : Nat → Bool}

theorem State.sumBelow_flags {k : Nat} (hf : ∀ p, p < k → (u.front p).a = BitVec.ofNat 32 (f p).toNat) :
    u.sumBelow k = BitVec.ofNat 32 (Nat.count (fun q => f q = true) k) := by
  induction k with
  | zero => rfl
  | succ k ih =>
    rw [u.sumBelow_succ, ih fun p hp => hf p (Nat.lt_succ_of_lt hp), hf k (Nat.lt_succ_self k), Nat.count_succ,
      BitVec.ofNat_add]
    cases f k <;> rfl

/-- The scan stage counts flags, and leaves the `b` components. -/
theorem State.SizeOk.runPasses_scn_flags (hs : u.SizeOk) (ha : u.AboveEmpty)
    (hf : ∀ p, p < u.n.toNat → (u.front p).a = BitVec.ofNat 32 (f p).toNat) :
    ∃ v, runPasses (ascending .scn (clog2 u.n.toNat)) u = .next v ∧ v.AboveEmpty ∧
      ∀ p, p < u.n.toNat → v.front p = ⟨BitVec.ofNat 32 (keptUpTo f p), (u.front p).b⟩ := by
  obtain ⟨v, hv, hscan⟩ := hs.runPasses_scn
  refine ⟨v, hv, runPasses_scn_aboveEmpty hv ha, fun p hp => ?_⟩
  have hsum : (v.front p).a = BitVec.ofNat 32 (keptUpTo f p) := by
    rw [hscan.a_eq_sumBelow hp, State.sumBelow_flags fun q hq => hf q (by omega), keptUpTo]
  rw [← hsum, ← hscan.b p hp]

end

/-! ## The stages of the program -/

/-- The detector and SGK. -/
def segmentStage (l : Nat) : List Instr := (.rli :: ascending .rls l) ++ [.sgk]

/-- The scan of the chunk starts, RDK, and the compactor. -/
def compactStage (l : Nat) : List Instr := (ascending .scn l ++ [.rdk]) ++ ascending .cmp l

/-- SGW, the scan of the widths, RDW, and the expander. -/
def expandStage (l : Nat) : List Instr := .sgw :: (ascending .scn l ++ (.rdw :: descending .exp l))

theorem progBody_eq_stages (l : Nat) :
    progBody l = segmentStage l ++ (compactStage l ++ (expandStage l ++ [.pck])) := by
  simp [progBody, segmentStage, compactStage, expandStage]

theorem State.maxRun_toNat (s : State) (x : Symbol) :
    (s.maxRun x).toNat = longest s.mrn.toNat s.mrw.toNat x := by
  unfold State.maxRun longest
  split <;> rfl

/-- The chunk starts of the encode of `s`. -/
abbrev State.starts (s : State) : Nat → Bool := startsChunk s.symAt (longest s.mrn.toNat s.mrw.toNat)

/-- The state `u` after the segment stage of the encode of `s`: the chunk starts are marked. -/
structure Segmented (s u : State) : Prop where
  outside : SameOutside s u
  marked  : ∀ p, p < s.n.toNat → u.front p = if s.starts p then ⟨1#32, BitVec.ofNat 32 p⟩ else Lane.empty
  above   : u.AboveEmpty

/-- RDK has latched the number of chunks, and of the lanes that start none. -/
abbrev KeepLatched (s : State) (cs : List (Symbol × Nat)) (u : State) : Prop :=
  u.keepcnt = BitVec.ofNat 32 cs.length ∧ u.repeatcnt = s.n - BitVec.ofNat 32 cs.length

theorem KeepLatched.of_eq {s u v : State} {cs : List (Symbol × Nat)} (h : KeepLatched s cs u)
    (hkept : v.keepcnt = u.keepcnt ∧ v.repeatcnt = u.repeatcnt) : KeepLatched s cs v :=
  ⟨hkept.1.trans h.1, hkept.2.trans h.2⟩

/-- The state `u` after the scan of the chunk starts and RDK: each lane holds the number of chunk starts up to it, as
the compactor needs it, and their total is latched. -/
structure Ranked (s : State) (cs : List (Symbol × Nat)) (u : State) : Prop where
  outside : SameOutside s u
  enters  : Compacted u s.starts 0 u
  keep    : KeepLatched s cs u

/-- The state `u` after the compact stage: slot `j` holds the lane at which chunk `j` starts. -/
structure Dense (s : State) (cs : List (Symbol × Nat)) (u : State) : Prop where
  outside : SameOutside s u
  slot    : ∀ j, j < cs.length → (u.front j).b = BitVec.ofNat 32 (chunkStart cs j)
  rest    : ∀ x, cs.length ≤ x → x < 2 * s.n.toNat → (u.front x).b = noLane
  keep    : KeepLatched s cs u

/-- The state `u` after the expand stage: the slots have moved to where their bytes start. -/
structure Opened (s : State) (cs : List (Symbol × Nat)) (u : State) : Prop where
  outside : SameOutside s u
  slot    : ∀ j, j < cs.length → (u.front (pieceStart chunkBytes cs j)).b = BitVec.ofNat 32 (chunkStart cs j)
  rest    : ∀ x, x < 2 * s.n.toNat → (∀ j, j < cs.length → x ≠ pieceStart chunkBytes cs j) → (u.front x).b = noLane
  keep    : KeepLatched s cs u
  wide    : u.widecnt = BitVec.ofNat 32 (widesBefore (wideChunk cs) cs.length)

/-- What an encode starts from: lanes that exist, maximum runs of at least 1, and the chunks of its symbols. -/
structure Encodes (s : State) (cs : List (Symbol × Nat)) : Prop where
  size   : s.SizeOk
  runs   : s.mrn ≠ 0#32 ∧ s.mrw ≠ 0#32
  chunks : GreedyChunks (longest s.mrn.toNat s.mrw.toNat) ((List.range s.n.toNat).map s.symAt) cs
  fits   : ∀ c ∈ cs, FitsBytes c

/-! ## The segment stage -/

section
variable {s u : State} {p : Nat}

/-- The detector measures the offset of every lane in its run. -/
theorem Detected.a_eq_runOffset (h : Detected s (clog2 s.n.toNat) u) (hp : p < s.n.toNat) :
    (u.front p).a = BitVec.ofNat 32 (runOffset s.symAt p + 1) := by
  have hle := runOffset_le s.symAt p
  have hlog := le_two_pow_clog2 s.n.toNat
  rw [h.a p _ hp (s.inRunFrom_runOffset p)]
  exact congrArg (BitVec.ofNat 32) (by omega)

theorem Detected.sgkLane_eq (hs : s.SizeOk) (hmrn : s.mrn ≠ 0#32) (hmrw : s.mrw ≠ 0#32)
    (h : Detected s (clog2 s.n.toNat) u) (hout : SameOutside s u) (hp : p < s.n.toNat) :
    u.sgkLane p = if s.starts p then ⟨1#32, BitVec.ofNat 32 p⟩ else Lane.empty := by
  have hmax : u.maxRun (u.symAt p) = s.maxRun (s.symAt p) := by rw [hout.maxRun, hout.symAt]
  have hk : runOffset s.symAt p < 2 ^ 29 := (runOffset_le _ p).trans_lt (hs.lt_two_pow hp)
  obtain ⟨hstart, hother⟩ := State.sgkLane_of_runLength (hmax ▸ State.maxRun_ne_zero hmrn hmrw _) hk
    (h.a_eq_runOffset hp)
  rw [hmax, s.maxRun_toNat] at hstart hother
  unfold State.starts startsChunk
  split
  · next hd => exact hstart (Nat.mod_eq_zero_of_dvd (of_decide_eq_true hd))
  · next hd => exact hother fun h0 => hd (decide_eq_true (Nat.dvd_of_mod_eq_zero h0))

theorem runPasses_segmentStage (hs : s.SizeOk) (hmrn : s.mrn ≠ 0#32) (hmrw : s.mrw ≠ 0#32) :
    ∃ u, runPasses (segmentStage (clog2 s.n.toNat)) s = .next u ∧ Segmented s u := by
  obtain ⟨t, ht, hdet⟩ := hs.runPasses_detector
  have hout := runPasses_sameOutside ht
  have hsgk := exec_sgk_of_le (hout.sizeOk hs).2.1
  have hrun : runPasses (segmentStage (clog2 s.n.toNat)) s = .next (t.bufferNext (t.sourceLane t.sgkLane)) := by
    rw [segmentStage, runPasses_append_of_next ht, runPasses_of_next hsgk]
    rfl
  refine ⟨_, hrun, runPasses_sameOutside hrun, fun p hp => ?_, fun p => t.front_bufferNext_sourceLane_of_le _⟩
  rw [t.front_bufferNext_sourceLane _ (hdet.n ▸ hp), hdet.sgkLane_eq hs hmrn hmrw hout hp]

end

/-! ## The compact stage -/

section
variable {s u : State} {cs : List (Symbol × Nat)} {p j x : Nat}

theorem Segmented.front_eq_flag (h : Segmented s u) (hp : p < s.n.toNat) :
    u.front p = ⟨BitVec.ofNat 32 (s.starts p).toNat, if s.starts p then BitVec.ofNat 32 p else -1#32⟩ := by
  rw [h.marked p hp]
  cases s.starts p <;> rfl

theorem Segmented.runPasses_ranks (hs : Encodes s cs) (h : Segmented s u) :
    ∃ v, runPasses (ascending .scn (clog2 s.n.toNat) ++ [.rdk]) u = .next v ∧ Ranked s cs v := by
  obtain ⟨hn, -⟩ := h.outside.config
  obtain ⟨v, hscn, habove, hscan⟩ := (h.outside.sizeOk hs.size).runPasses_scn_flags h.above fun p hp => by
    rw [h.front_eq_flag (hn ▸ hp)]
  rw [hn] at hscn hscan
  have hout := h.outside.trans (runPasses_sameOutside hscn)
  obtain ⟨hpos, hle, -⟩ := hout.sizeOk hs.size
  obtain ⟨hnv, -⟩ := hout.config
  obtain ⟨w, hrdk, hkeep, hrep, hframe, -⟩ := readbackOfKeepTotal.2 v hpos (by omega)
  have hlast : (v.front (s.n.toNat - 1)).a = BitVec.ofNat 32 cs.length := by
    rw [hscan _ (Nat.sub_one_lt_of_lt hs.size.1), hs.chunks.keptUpTo_last hs.size.1]
  rw [hnv, hlast] at hkeep hrep
  refine ⟨w, by rw [runPasses_append_of_next hscn, runPasses_of_next hrdk]; rfl, hout.trans hframe.outside, ?_,
    hkeep, hrep⟩
  obtain ⟨hnw, -⟩ := (hout.trans hframe.outside).config
  refine .start (fun p hp => ?_) fun p hp hlanes => ?_
  · rw [hnw] at hp
    rw [hframe.front, hscan p hp, h.front_eq_flag hp]
  · rw [hnw, ← hnv] at hp hlanes
    rw [hframe.front, habove p hp hlanes]

theorem Ranked.runPasses_cmp (hs : Encodes s cs) (h : Ranked s cs u) :
    ∃ v, runPasses (ascending .cmp (clog2 s.n.toNat)) u = .next v ∧ Dense s cs v := by
  obtain ⟨v, hcmp, hend⟩ := h.enters.runPasses_cmp (h.outside.sizeOk hs.size)
  obtain ⟨hn, -⟩ := h.outside.config
  have hkept := runPasses_keepCounts hcmp (by simp [ascending])
  refine ⟨v, hn ▸ hcmp, h.outside.trans (runPasses_sameOutside hcmp), fun j hj => ?_, fun x hx hlanes => ?_,
    h.keep.of_eq hkept⟩
  · have hlane := hend.front_rank (hn ▸ hs.chunks.chunkStart_lt hj) (hs.chunks.startsChunk_start hj)
    rw [hs.chunks.keptUpTo_chunkStart hj, Nat.add_sub_cancel] at hlane
    rw [hlane]
    rfl
  · have hkept := hs.chunks.keptUpTo_last hs.size.1
    rw [← hn] at hkept hlanes
    rw [hend.front_empty (decide_eq_true (dvd_zero _)) (hkept.trans_le hx) hlanes]
    rfl

theorem Segmented.runPasses_compactStage (hs : Encodes s cs) (h : Segmented s u) :
    ∃ v, runPasses (compactStage (clog2 s.n.toNat)) u = .next v ∧ Dense s cs v := by
  obtain ⟨v, hranks, h'⟩ := h.runPasses_ranks hs
  obtain ⟨w, hcmp, h''⟩ := h'.runPasses_cmp hs
  exact ⟨w, (runPasses_append_of_next hranks).trans hcmp, h''⟩

end

/-! ## The expand stage -/

section
variable {s u : State} {cs : List (Symbol × Nat)} {p j x : Nat}

theorem Encodes.chunkStart_lt (hs : Encodes s cs) (hj : j < cs.length) : chunkStart cs j < 2 ^ 29 :=
  hs.size.lt_two_pow (hs.chunks.chunkStart_lt hj)

theorem Encodes.toNat_chunkStart (hs : Encodes s cs) (hj : j < cs.length) :
    (BitVec.ofNat 32 (chunkStart cs j)).toNat = chunkStart cs j := by
  have h := hs.chunkStart_lt hj
  exact Nat.mod_eq_of_lt (by omega)

theorem Encodes.chunkStart_ne (hs : Encodes s cs) (hj : j < cs.length) :
    BitVec.ofNat 32 (chunkStart cs j) ≠ noLane :=
  ofNat_ne_ofNat_of_lt (k := 2 ^ 32 - 1) (by have := hs.chunkStart_lt hj; omega) (by decide)

/-- The symbol a slot gathers is its chunk's. -/
theorem Encodes.symOf_chunkStart (hs : Encodes s cs) (hout : SameOutside s u) (hj : j < cs.length) :
    u.symOf (BitVec.ofNat 32 (chunkStart cs j)) = cs[j].1 := by
  rw [State.symOf, hs.toNat_chunkStart hj, hout.symAt, hs.chunks.symbol_start hj]

/-- Contents whose `b` are chunk starts gather in range. -/
theorem Encodes.gathersOk (hs : Encodes s cs) (hout : SameOutside s u)
    (h : ∀ x, x < 2 * s.n.toNat → (u.front x).b = noLane ∨
      ∃ j, j < cs.length ∧ (u.front x).b = BitVec.ofNat 32 (chunkStart cs j)) : u.GathersOk := by
  obtain ⟨hn, -⟩ := hout.config
  intro x hx
  rw [State.lanes, hn] at hx
  rw [hn]
  refine (h x hx).imp_right fun ⟨j, hj, hb⟩ => ?_
  rw [hb, hs.toNat_chunkStart hj]
  exact hs.chunks.chunkStart_lt hj

theorem Dense.sgwLane_eq (hs : Encodes s cs) (h : Dense s cs u) (hx : x < 2 * s.n.toNat) :
    u.sgwLane x = ⟨BitVec.ofNat 32 (wideChunk cs x).toNat, (u.front x).b⟩ := by
  rcases Nat.lt_or_ge x cs.length with hlt | hge
  · have hb := h.slot x hlt
    have hne : (u.front x).b ≠ noLane := hb ▸ hs.chunkStart_ne hlt
    have hsym : u.symOf (u.front x).b = cs[x].1 := hb ▸ hs.symOf_chunkStart h.outside hlt
    rw [wideChunk_of_lt hlt, ← hsym]
    cases hw : isWide (u.symOf (u.front x).b) with
    | true => exact State.sgwLane_of_wide hne hw
    | false => exact State.sgwLane_of_narrow hne hw
  · have hb := h.rest x hge hx
    rw [State.sgwLane_of_empty hb, hb, wideChunk_of_le hge]
    rfl

theorem Dense.exec_sgw (hs : Encodes s cs) (h : Dense s cs u) :
    exec .sgw u = .next (u.bufferNext (u.sourceLane u.sgwLane)) := by
  have hsize := h.outside.sizeOk hs.size
  have hgathers : u.GathersOk := hs.gathersOk h.outside fun x hx =>
    (Nat.lt_or_ge x cs.length).symm.imp (fun hge => h.rest x hge hx) fun hlt => ⟨x, hlt, h.slot x hlt⟩
  refine exec_sgw_of_gathersInRange hsize.2.1 ((u.gatherOk_iff_gathersInRange _).1 (hgathers.gatherOk hsize ?_))
  exact Nat.le_mul_of_pos_left _ (by decide)

/-- The state `u` after SGW and the scan of the widths: slot `j` holds the number of wide chunks up to its own. -/
structure Widened (s : State) (cs : List (Symbol × Nat)) (u : State) : Prop where
  outside : SameOutside s u
  slot    : ∀ j, j < cs.length →
    u.front j = ⟨BitVec.ofNat 32 (widesBefore (wideChunk cs) (j + 1)), BitVec.ofNat 32 (chunkStart cs j)⟩
  rest    : ∀ x, cs.length ≤ x → x < 2 * s.n.toNat → (u.front x).b = noLane
  total   : (u.front (s.n.toNat - 1)).a = BitVec.ofNat 32 (widesBefore (wideChunk cs) cs.length)
  keep    : KeepLatched s cs u

theorem Dense.runPasses_widths (hs : Encodes s cs) (h : Dense s cs u) :
    ∃ v, runPasses (.sgw :: ascending .scn (clog2 s.n.toNat)) u = .next v ∧ Widened s cs v := by
  have hpos := hs.size.1
  have hsgw := h.exec_sgw hs
  have hsize := exec_sizeOk (h.outside.sizeOk hs.size) hsgw
  obtain ⟨hn, -⟩ := h.outside.config
  have hflag : ∀ x, x < s.n.toNat → (u.bufferNext (u.sourceLane u.sgwLane)).front x =
      ⟨BitVec.ofNat 32 (wideChunk cs x).toNat, (u.front x).b⟩ := fun x hx => by
    rw [u.front_bufferNext_sourceLane _ (hn ▸ hx), h.sgwLane_eq hs (by omega)]
  obtain ⟨v, hscn, habove, hscan⟩ := hsize.runPasses_scn_flags (f := wideChunk cs)
    (fun p => u.front_bufferNext_sourceLane_of_le _) fun p hp => by rw [hflag p (hn ▸ hp)]
  rw [State.bufferNext_n, hn] at hscn hscan
  have hrun := (runPasses_of_next hsgw).trans hscn
  have hout := h.outside.trans (runPasses_sameOutside hrun)
  have hkept := runPasses_keepCounts hrun (by simp [ascending])
  have hlane : ∀ x, x < s.n.toNat →
      v.front x = ⟨BitVec.ofNat 32 (widesBefore (wideChunk cs) (x + 1)), (u.front x).b⟩ := fun x hx => by
    rw [hscan x hx, hflag x hx]
    rfl
  refine ⟨v, hrun, hout, fun j hj => ?_, fun x hx hlanes => ?_, ?_, h.keep.of_eq hkept⟩
  · rw [hlane j (hj.trans_le hs.chunks.length_le), h.slot j hj]
  · rcases Nat.lt_or_ge x s.n.toNat with hlt | hge
    · rw [hlane x hlt]
      exact h.rest x hx hlanes
    · obtain ⟨hnv, -⟩ := hout.config
      rw [habove x (hnv ▸ hge) (hnv ▸ hlanes)]
      rfl
  · rw [hlane _ (Nat.sub_one_lt_of_lt hpos), Nat.sub_add_cancel hpos, widesBefore_of_le hs.chunks.length_le]

theorem Widened.denseSlots (hs : Encodes s cs) (h : Widened s cs u) : DenseSlots u (wideChunk cs) cs.length := by
  obtain ⟨hn, -⟩ := h.outside.config
  refine ⟨h.outside.sizeOk hs.size, hn ▸ hs.chunks.length_le, fun j hj => ?_, fun j hj => ?_, hn ▸ h.rest⟩
  · rw [h.slot j hj, hs.toNat_chunkStart hj, hn]
    exact hs.chunks.chunkStart_lt hj
  · rw [h.slot j hj]
    have hlt := hs.chunkStart_lt hj
    refine State.dispE_slot (by omega) ?_
    rw [wideChunk_of_lt hj, h.outside.symAt, hs.chunks.symbol_start hj]

/-- RDW latches the number of wide chunks. -/
theorem Widened.exec_rdw (hs : Encodes s cs) (h : Widened s cs u) :
    ∃ v, exec .rdw u = .next v ∧ Widened s cs v ∧
      v.widecnt = BitVec.ofNat 32 (widesBefore (wideChunk cs) cs.length) := by
  obtain ⟨hpos, hle, -⟩ := h.outside.sizeOk hs.size
  obtain ⟨hn, -⟩ := h.outside.config
  obtain ⟨v, hv, hwide, hframe, -, -, hkeep, hrep, -⟩ := readbackOfWideTotal.2 u hpos (by omega)
  refine ⟨v, hv, ⟨h.outside.trans hframe.outside, fun j hj => ?_, fun x hx hlanes => ?_, ?_,
    h.keep.of_eq ⟨hkeep, hrep⟩⟩, ?_⟩
  · rw [hframe.front, h.slot j hj]
  · rw [hframe.front, h.rest x hx hlanes]
  · rw [hframe.front, h.total]
  · rw [hwide, hn, h.total]

theorem Dense.runPasses_expandStage (hs : Encodes s cs) (h : Dense s cs u) :
    ∃ v, runPasses (expandStage (clog2 s.n.toNat)) u = .next v ∧ Opened s cs v := by
  obtain ⟨t, ht, hwidths⟩ := h.runPasses_widths hs
  obtain ⟨w, hrdw, hw, hwide⟩ := hwidths.exec_rdw hs
  obtain ⟨v, hexp, hend⟩ := (hw.denseSlots hs).runPasses_exp
  obtain ⟨hn, -⟩ := hw.outside.config
  rw [hn] at hexp
  have hrun : runPasses (expandStage (clog2 s.n.toNat)) u = .next v := by
    rw [expandStage, ← List.cons_append, runPasses_append_of_next ht, runPasses_of_next hrdw, hexp]
  have hkept := runPasses_keepCounts hexp (by simp [descending])
  refine ⟨v, hrun, h.outside.trans (runPasses_sameOutside hrun), fun j hj => ?_, fun x hx hno => ?_,
    hw.keep.of_eq hkept, (runPasses_widecnt hexp (by simp [descending])).trans hwide⟩
  · rw [pieceStart_chunkBytes hj.le, hend.front_place hj, hw.slot j hj]
  · exact (hend.front_empty (hn ▸ hx) fun j hj => pieceStart_chunkBytes hj.le ▸ hno j hj).1

end

/-! ## The packed bytes -/

section
variable {s u : State} {cs : List (Symbol × Nat)} {j e x d : Nat}

theorem pieceStart_chunkBytes_succ (hj : j < cs.length) :
    pieceStart chunkBytes cs (j + 1) = pieceStart chunkBytes cs j + 1 + (isWide cs[j].1).toNat := by
  rw [pieceStart_succ _ _ hj, chunkBytes_length, Nat.add_assoc]

/-- A chunk has at least one lane and at most two bytes, so the bytes fit the `2N` lanes (45_packer.md R141). -/
theorem Encodes.bytes_le (hs : Encodes s cs) : (cs.flatMap chunkBytes).length ≤ 2 * s.n.toNat := by
  have hle := widesBefore_le (wideChunk cs) cs.length
  have hlength := hs.chunks.length_le
  rw [length_flatMap_chunkBytes]
  omega

theorem Encodes.pieceStart_le (hs : Encodes s cs) (hj : j ≤ cs.length) :
    pieceStart chunkBytes cs j ≤ 2 * s.n.toNat := by
  have hmono := pieceStart_mono chunkBytes cs hj
  rw [pieceStart_length] at hmono
  exact hmono.trans hs.bytes_le

theorem Encodes.pieceStart_lt (hs : Encodes s cs) (hj : j < cs.length) :
    pieceStart chunkBytes cs j < 2 * s.n.toNat := by
  have hnext := pieceStart_chunkBytes_succ hj
  have hle := hs.pieceStart_le (j := j + 1) hj
  omega

/-- A slot strictly between the starts of a chunk and the next holds nothing. -/
theorem Opened.front_between (h : Opened s cs u) (hx : x < 2 * s.n.toNat) (hlo : pieceStart chunkBytes cs j < x)
    (hhi : x < pieceStart chunkBytes cs (j + 1)) : (u.front x).b = noLane := by
  refine h.rest x hx fun i _ heq => ?_
  rcases Nat.lt_or_ge j i with hgt | hle
  · have := pieceStart_mono chunkBytes cs (i := j + 1) hgt
    omega
  · have := pieceStart_mono chunkBytes cs hle
    omega

/-- A slot from the last chunk's end on holds nothing. -/
theorem Opened.front_beyond (h : Opened s cs u) (hx : x < 2 * s.n.toNat)
    (hend : pieceStart chunkBytes cs cs.length ≤ x) : (u.front x).b = noLane := by
  refine h.rest x hx fun i hi heq => ?_
  have hnext := pieceStart_chunkBytes_succ hi
  have hmono := pieceStart_mono chunkBytes cs (i := i + 1) hi
  omega

/-- From where a chunk's bytes end the packer reads where the next chunk starts, or `N`. -/
theorem Opened.nextSrc_pieceStart (hs : Encodes s cs) (h : Opened s cs u) (hj : j ≤ cs.length) :
    u.nextSrc (pieceStart chunkBytes cs j) = BitVec.ofNat 32 (chunkStart cs j) := by
  obtain ⟨hn, -⟩ := h.outside.config
  rcases hj.lt_or_eq with hlt | rfl
  · have hb := h.slot j hlt
    rw [State.nextSrc_of_valid (by rw [hn]; exact hs.pieceStart_lt hlt) (hb ▸ hs.chunkStart_ne hlt), hb]
  · rw [State.nextSrc_of_none, hs.chunks.chunkStart_length, hn, BitVec.ofNat_toNat, BitVec.setWidth_eq]
    rw [hn]
    exact (Nat.lt_or_ge _ _).symm.imp_right fun hlt => h.front_beyond hlt le_rfl

/-- The length the packer computes is the chunk's. -/
theorem Opened.nextSrc_sub (hs : Encodes s cs) (h : Opened s cs u) (hj : j < cs.length) :
    u.nextSrc (pieceStart chunkBytes cs (j + 1)) - (u.front (pieceStart chunkBytes cs j)).b =
      BitVec.ofNat 32 cs[j].2 := by
  rw [h.nextSrc_pieceStart hs hj, h.slot j hj, chunkStart_succ hj, BitVec.ofNat_add]
  exact add_sub_cancel_left _ _

/-! ### The bytes of one chunk -/

theorem wideFirstByte_ofNat (x : Symbol) {len : Nat} (h : len ≤ 4095) :
    wideFirstByte x (BitVec.ofNat 32 len) = BitVec.ofNat 8 (x.toNat * 16 + len / 256) := by
  have hx := x.isLt
  refine BitVec.eq_of_toNat_eq ?_
  rw [wideFirstByte_toNat, BitVec.toNat_ofNat, BitVec.toNat_ofNat]
  omega

theorem wideSecondByte_ofNat (len : Nat) :
    wideSecondByte (BitVec.ofNat 32 len) = BitVec.ofNat 8 (len % 256) := by
  refine BitVec.eq_of_toNat_eq ?_
  rw [wideSecondByte_toNat, BitVec.toNat_ofNat, BitVec.toNat_ofNat]
  omega

theorem narrowByte_ofNat (x : Symbol) {len : Nat} (h : len ≤ 15) :
    narrowByte x (BitVec.ofNat 32 len) = BitVec.ofNat 8 (x.toNat * 16 + len) := by
  have hx := x.isLt
  refine BitVec.eq_of_toNat_eq ?_
  rw [narrowByte_toNat, BitVec.toNat_ofNat, BitVec.toNat_ofNat]
  omega

theorem Opened.wideSlot_iff (hs : Encodes s cs) (h : Opened s cs u) (hj : j < cs.length) :
    u.WideSlot (pieceStart chunkBytes cs j) ↔ isWide cs[j].1 = true := by
  rw [State.WideSlot, h.slot j hj, hs.symOf_chunkStart h.outside hj, and_iff_right (hs.chunkStart_ne hj)]

theorem Opened.packByte_of_wide (hs : Encodes s cs) (h : Opened s cs u) (hj : j < cs.length)
    (hw : isWide cs[j].1 = true) :
    u.packByte (pieceStart chunkBytes cs j) = BitVec.ofNat 8 (cs[j].1.toNat * 16 + cs[j].2 / 256) ∧
    u.packByte (pieceStart chunkBytes cs j + 1) = BitVec.ofNat 8 (cs[j].2 % 256) := by
  have hslot := (h.wideSlot_iff hs hj).2 hw
  have hlen := h.nextSrc_sub hs hj
  have hnext := pieceStart_chunkBytes_succ hj
  have hmax : cs[j].2 ≤ 4095 := (hs.fits _ (List.getElem_mem hj)).trans_eq (if_pos hw)
  rw [hw, Bool.toNat_true] at hnext
  have hle := hs.pieceStart_le (j := j + 1) hj
  have hsecond : (u.front (pieceStart chunkBytes cs j + 1)).b = noLane :=
    h.front_between (j := j) (by omega) (by omega) (by omega)
  rw [hnext] at hlen
  rw [State.packByte_of_wide hslot, State.packByte_of_second hsecond hslot, hlen, h.slot j hj,
    hs.symOf_chunkStart h.outside hj, wideFirstByte_ofNat _ hmax, wideSecondByte_ofNat]
  exact ⟨rfl, rfl⟩

theorem Opened.packByte_of_narrow (hs : Encodes s cs) (h : Opened s cs u) (hj : j < cs.length)
    (hw : isWide cs[j].1 = false) :
    u.packByte (pieceStart chunkBytes cs j) = BitVec.ofNat 8 (cs[j].1.toNat * 16 + cs[j].2) := by
  have hnarrow : ¬u.WideSlot (pieceStart chunkBytes cs j) := by
    rw [h.wideSlot_iff hs hj, hw]
    exact Bool.false_ne_true
  have hvalid : (u.front (pieceStart chunkBytes cs j)).b ≠ noLane := h.slot j hj ▸ hs.chunkStart_ne hj
  have hlen := h.nextSrc_sub hs hj
  have hmax : cs[j].2 ≤ 15 := (hs.fits _ (List.getElem_mem hj)).trans_eq (if_neg (Bool.eq_false_iff.1 hw))
  rw [pieceStart_chunkBytes_succ hj, hw, Bool.toNat_false, Nat.add_zero] at hlen
  rw [State.packByte_of_narrow hvalid hnarrow, hlen, h.slot j hj, hs.symOf_chunkStart h.outside hj,
    narrowByte_ofNat _ hmax]

/-- The packer writes each chunk's bytes where its slot is. -/
theorem Opened.packByte_chunk (hs : Encodes s cs) (h : Opened s cs u) (hj : j < cs.length)
    (he : e < (chunkBytes cs[j]).length) :
    some (u.packByte (pieceStart chunkBytes cs j + e)) = (chunkBytes cs[j])[e]? := by
  rw [chunkBytes_length] at he
  unfold chunkBytes
  cases hw : isWide cs[j].1 with
  | true =>
    rw [hw, Bool.toNat_true] at he
    obtain ⟨hfirst, hsecond⟩ := h.packByte_of_wide hs hj hw
    obtain rfl | rfl : e = 0 ∨ e = 1 := by omega
    · exact congrArg some hfirst
    · exact congrArg some hsecond
  | false =>
    rw [hw, Bool.toNat_false] at he
    obtain rfl : e = 0 := by omega
    exact congrArg some (h.packByte_of_narrow hs hj hw)

/-! ### All the bytes -/

/-- The bytes below the last chunk's end are the reference's. -/
theorem Opened.packByte_eq_getElem? (hs : Encodes s cs) (h : Opened s cs u) (hd : d < (cs.flatMap chunkBytes).length) :
    some (u.packByte d) = (cs.flatMap chunkBytes)[d]? := by
  obtain ⟨j, hj, e, he, rfl⟩ := exists_pieceStart_add chunkBytes cs hd
  rw [getElem?_flatMap_pieceStart chunkBytes cs hj he, h.packByte_chunk hs hj he]

/-- The bytes from the last chunk's end up to `2N` are 0. -/
theorem Opened.packByte_beyond (hs : Encodes s cs) (h : Opened s cs u) (hd : (cs.flatMap chunkBytes).length ≤ d)
    (hlanes : d < 2 * s.n.toNat) : u.packByte d = 0x00#8 := by
  rw [← pieceStart_length] at hd
  refine State.packByte_of_unused (h.front_beyond hlanes hd) fun c hc hwide => hwide.1 (h.rest c (by omega) ?_)
  rintro j hj rfl
  have hnext := pieceStart_chunkBytes_succ hj
  rw [(h.wideSlot_iff hs hj).1 hwide, Bool.toNat_true] at hnext
  have hmono := pieceStart_mono chunkBytes cs (i := j + 1) hj
  omega

end

/-! ## The whole program -/

/-- What PCK and FIN leave. -/
def State.packed (u : State) : State :=
  ((((u.fillOut u.packByte).advancePc).setMbytes (u.keepcnt + u.widecnt)).finishFlags).advancePc

section
variable {s u : State} {cs : List (Symbol × Nat)} {d : Nat}

theorem Opened.runPasses_packed (hs : Encodes s cs) (h : Opened s cs u) :
    runPasses [.pck, .fin] u = .next u.packed := by
  have hsize := h.outside.sizeOk hs.size
  have hgathers : u.GathersOk := hs.gathersOk h.outside fun x hx => by
    by_cases hslot : ∃ j, j < cs.length ∧ x = pieceStart chunkBytes cs j
    · obtain ⟨j, hj, rfl⟩ := hslot
      exact .inr ⟨j, hj, h.slot j hj⟩
    · exact .inl (h.rest x hx fun j hj heq => hslot ⟨j, hj, heq⟩)
  have hpck := exec_pck_of_gathersInRange hsize.2.1
    ((u.gatherOk_iff_gathersInRange _).1 (hgathers.gatherOk hsize le_rfl))
  rw [runPasses_of_next hpck, runPasses_of_next (exec_fin _)]
  rfl

/-- The program runs its stages to the end. -/
theorem Encodes.runPasses_program (hs : Encodes s cs) :
    ∃ u, Opened s cs u ∧ runPasses (progBody (clog2 s.n.toNat) ++ [.fin]) s = .next u.packed := by
  obtain ⟨u₁, hsegment, h₁⟩ := runPasses_segmentStage hs.size hs.runs.1 hs.runs.2
  obtain ⟨u₂, hcompact, h₂⟩ := h₁.runPasses_compactStage hs
  obtain ⟨u₃, hexpand, h₃⟩ := h₂.runPasses_expandStage hs
  refine ⟨u₃, h₃, ?_⟩
  rw [progBody_eq_stages, List.append_assoc, List.append_assoc, List.append_assoc, runPasses_append_of_next hsegment,
    runPasses_append_of_next hcompact, runPasses_append_of_next hexpand]
  exact h₃.runPasses_packed hs

theorem Opened.outAt_packed (h : Opened s cs u) (hd : d < 2 * s.n.toNat) : u.packed.outAt d = u.packByte d := by
  obtain ⟨hn, -⟩ := h.outside.config
  exact (u.outAt_fillOut _ d).trans (if_pos (by rwa [State.lanes, hn]))

theorem Opened.counts_packed (hs : Encodes s cs) (h : Opened s cs u) :
    u.packed.keepcnt.toNat = cs.length ∧ u.packed.widecnt.toNat = (cs.filter fun c => isWide c.1).length ∧
    u.packed.repeatcnt.toNat + u.packed.keepcnt.toNat = s.n.toNat ∧
    u.packed.mbytes.toNat = (cs.flatMap chunkBytes).length := by
  obtain ⟨hkeep, hrep⟩ := h.keep
  have hlength := hs.chunks.length_le
  have hwides := widesBefore_le (wideChunk cs) cs.length
  obtain ⟨-, hle, hmax⟩ := hs.size
  have hk : (BitVec.ofNat 32 cs.length).toNat = cs.length := Nat.mod_eq_of_lt (by omega)
  have hw : (BitVec.ofNat 32 (widesBefore (wideChunk cs) cs.length)).toNat = widesBefore (wideChunk cs) cs.length :=
    Nat.mod_eq_of_lt (by omega)
  refine ⟨?_, ?_, ?_, ?_⟩
  · rw [← hk, ← hkeep]
    rfl
  · rw [← widesBefore_length, ← hw, ← h.wide]
    rfl
  · show u.repeatcnt.toNat + u.keepcnt.toNat = _
    rw [hrep, hkeep, BitVec.toNat_sub_of_le (by rwa [BitVec.le_def, hk]), hk]
    omega
  · show (u.keepcnt + u.widecnt).toNat = _
    rw [hkeep, h.wide, BitVec.toNat_add, hk, hw, length_flatMap_chunkBytes]
    exact Nat.mod_eq_of_lt (by omega)

end

theorem ne_zero_of_one_le_toNat {v : Word} (h : 1 ≤ v.toNat) : v ≠ 0#32 := by
  rintro rfl
  exact absurd h (by decide)

/-- What a START accepted: the chunks of its encode are `RLEREF`'s, and fit their bytes. -/
theorem State.Started.encodes {s : State} (h : s.Started) :
    Encodes s (refChunks s.symbols s.mrn.toNat s.mrw.toNat) := by
  obtain ⟨-, ⟨hmrn, hmrn'⟩, ⟨hmrw, hmrw'⟩, -⟩ := h.inv.config h.busy
  have hpos : ∀ x, 1 ≤ longest s.mrn.toNat s.mrw.toNat x := fun x => by
    unfold longest
    split <;> assumption
  have hmax : ∀ x, longest s.mrn.toNat s.mrw.toNat x ≤ longest 15 4095 x := fun x => by
    unfold longest
    split <;> assumption
  have hchunks := refChunks_greedy hpos s.symbols
  exact ⟨h.inv.sizeOk h.busy, ⟨ne_zero_of_one_le_toNat hmrn, ne_zero_of_one_le_toNat hmrw⟩, hchunks,
    fun c hc => (hchunks.lengths c hc).2.trans (hmax c.1)⟩

/-- Settles O46: each stage of the program leaves what the next needs, from the detector's offsets to the bytes at the
places of the chunks of `RLEREF`. -/
theorem encodeMeetsTheReference : Obligations.EncodeMeetsTheReference := by
  intro s h
  have hs := h.encodes
  have hl := hs.size.clog2_n_le
  obtain ⟨u, hu, hrun⟩ := hs.runPasses_program
  obtain ⟨hkeep, hwide, hrep, hmbytes⟩ := hu.counts_packed hs
  have hlength : (progBody (clog2 s.n.toNat) ++ [Instr.fin]).length = 5 * clog2 s.n.toNat + 7 := by
    rw [List.length_append, progBody_length]
    rfl
  have hpc := runPasses_pc_toNat hrun (by rw [h.pcZero, hlength]; show 0 + _ < 256; omega)
  rw [h.pcZero, hlength] at hpc
  refine ⟨u.packed, h.run_eq_runPasses.trans hrun, rfl, rfl, hpc.trans (Nat.zero_add _), hmbytes, fun d hd => ?_,
    fun d hd hlanes => ?_, hkeep, hwide, hrep⟩
  · rw [hmbytes] at hd
    rw [hu.outAt_packed (hd.trans_le hs.bytes_le), hu.packByte_eq_getElem? hs hd]
    rfl
  · rw [hu.outAt_packed hlanes, hu.packByte_beyond hs (hmbytes ▸ hd) hlanes]

/-- Settles O47: the stream is `RLEREF`'s, from which the oracle reads back its chunks, and those expand to the
symbols. -/
theorem encodedStreamDecodesToTheSymbols : Obligations.EncodedStreamDecodesToTheSymbols := by
  intro s h
  have hs := h.encodes
  obtain ⟨t, hrun, -, -, -, hmbytes, hbytes, -, -⟩ := encodeMeetsTheReference s h
  have hstream : (List.range t.mbytes.toNat).map t.outAt = rleRef s.symbols s.mrn.toNat s.mrw.toNat := by
    refine List.ext_getElem (by simpa using hmbytes) fun d hd hd' => ?_
    rw [List.getElem_map, List.getElem_range]
    exact Option.some.inj ((hbytes d (hmbytes ▸ hd')).trans (List.getElem?_eq_getElem hd'))
  have hchunks := streamChunks_flatMap_chunkBytes hs.fits
  refine ⟨t, _, hrun, rfl, ?_⟩
  rw [hstream, rleRef, rleDecode, hchunks, hmbytes, rleRef]
  refine ⟨hs.chunks.expands, hs.chunks.lengths, flatMap_chunkBytes_length _, ?_, hs.bytes_le⟩
  rw [length_flatMap_chunkBytes]
  exact (hs.chunks.one_le_length hs.size.1).trans (Nat.le_add_right _ _)

end Sys2Proof.Machine
end

section
/-! PROOFS. The exceptions family, no stop: whatever the host does next, a state of the hardware's invariant answers a
next state of it (60_exceptions.md R180; 20_memory.md R51; 46_sequencer_host.md R152). -/

namespace Sys2Proof.Machine

/-! ## The program and the gathers -/

/-- What the invariant of the hardware asks beside the invariant of the machine. -/
structure State.ProgramOk (s : State) : Prop where
  noWords : s.supplied = []
  pcIn    : s.busy = true → s.pc.toNat < 5 * clog2 s.n.toNat + 7
  gathers : s.busy = true → 1 ≤ s.pc.toNat → s.GathersOk

theorem State.canonical_iff (s : State) : s.Canonical ↔ s.Inv ∧ s.ProgramOk :=
  ⟨fun h => ⟨h.inv, h.noWords, h.pcIn, h.gathers⟩, fun ⟨hi, h⟩ => ⟨hi, h.noWords, h.pcIn, h.gathers⟩⟩

/-- An idle machine's `PC` and banks are not bound by anything. -/
theorem State.ProgramOk.of_idle {s : State} (hw : s.supplied = []) (hb : s.busy = false) : s.ProgramOk :=
  ⟨hw, fun h => absurd (hb.symm.trans h) nofun, fun h => absurd (hb.symm.trans h) nofun⟩

/-! ## The sequencer's turn -/

/-- At every index of the program stands a well-formed operation: RLI at the first, FIN at none but the last. -/
theorem exists_progOf_getElem?_eq_encode {l pc : Nat} (hl : l ≤ 31) (hpc : pc < 5 * l + 7) :
    ∃ i, (progOf l)[pc]? = some (encode i) ∧ i.wellFormed = true ∧ (pc = 0 → i = .rli) ∧
      (i ≠ .fin → pc + 1 < 5 * l + 7) := by
  have hlength := progBody_length l
  rw [progOf_eq_map_encode hl, List.getElem?_map]
  rcases Nat.lt_or_ge pc (progBody l).length with hbody | hlast
  · obtain ⟨hwf, -⟩ := progBody_wellFormed hl _ (List.getElem_mem hbody)
    refine ⟨(progBody l)[pc], ?_, hwf, ?_, fun _ => by omega⟩
    · rw [List.getElem?_append_left hbody, List.getElem?_eq_getElem hbody, Option.map_some]
    · rintro rfl
      rfl
  · obtain rfl : pc = (progBody l).length := by omega
    refine ⟨.fin, ?_, rfl, fun h => by omega, fun h => absurd rfl h⟩
    rw [List.getElem?_concat_length, Option.map_some]

/-- The pass at `PC` answers: either it is RLI, or the gathers are in range. After it `PC` is still inside the program
unless it was FIN, and the gathers are in range. -/
theorem State.Canonical.seqTurn_answers {s : State} (h : s.Canonical) (hb : s.busy = true) :
    ∃ t, s.seqTurn = .next t ∧ t.ProgramOk := by
  have hsize := h.inv.sizeOk hb
  have hl := hsize.clog2_n_le
  obtain ⟨i, hword, hwf, hfirst, hlast⟩ := exists_progOf_getElem?_eq_encode (hl.trans (by decide)) (h.pcIn hb)
  have hfetch := State.fetchWord_of_program h.noWords hsize.n_ne_zero hword
  have hg : i = .rli ∨ s.dropSupplied.GathersOk := (Nat.eq_zero_or_pos s.pc.toNat).imp hfirst (h.gathers hb)
  obtain ⟨t, ht⟩ := exec_answers (s := s.dropSupplied) hsize hg hwf
  obtain ⟨hout, hpc, -⟩ := onlyTheNamedPassWrites i _ t ht
  obtain ⟨-, -, hsupplied, -⟩ := hout.models
  refine ⟨t, (State.seqTurn_of_fetchWord hb hfetch (decode_encode hwf)).trans ht,
    hsupplied.trans (congrArg List.tail h.noWords), fun hbt => ?_,
    fun _ _ => exec_gathersOk (s := s.dropSupplied) hsize hg ht⟩
  have hfin : i ≠ .fin := by
    rintro rfl
    obtain rfl := exec_fin_next ht
    cases hbt
  have hnext := hlast hfin
  have hfits : s.pc.toNat + (1#8).toNat < 2 ^ 8 := show s.pc.toNat + 1 < 256 by omega
  rw [(exec_n_nmax ht).1, hpc]
  exact (BitVec.toNat_add_of_lt hfits).trans_lt hnext

/-! ## The host's transactions -/

/-- A command: an ABORT ends idle, and an accepted START is at `PC` 0, before the first pass. -/
theorem State.ProgramOk.command {s : State} (h : s.ProgramOk) (w : Word) : (s.command w).ProgramOk := by
  obtain hc | hc | hc := s.command_cases w <;> rw [hc]
  · obtain ⟨-, ha⟩ | ⟨-, ha⟩ := s.abort_cases <;> rw [ha]
    · exact .of_idle h.noWords rfl
    · exact h
  · obtain ⟨-, hs⟩ | ⟨-, -, hs⟩ | ⟨hb, -, hs⟩ := s.start_cases <;> rw [hs]
    · exact h
    · exact ⟨h.noWords, fun _ => Nat.succ_pos _, fun _ hpc => absurd hpc (Nat.not_succ_le_zero 0)⟩
    · exact .of_idle h.noWords hb
  · exact h

/-- A write: what is no command writes only while idle. -/
theorem State.ProgramOk.hostWrite {s : State} (h : s.ProgramOk) (sp : Space) (ix : Nat) (w : Word) :
    (s.hostWrite sp ix w).ProgramOk := by
  obtain ⟨-, -, hw⟩ | ⟨hb, -, -, hw⟩ | ⟨hb, -, -, hw⟩ | ⟨hb, -, -, hw⟩ | ⟨hb, -, -, hw⟩ | hw :=
    s.hostWrite_cases sp ix w <;> rw [hw]
  · exact h.command w
  iterate 4 exact .of_idle h.noWords hb
  · exact h

/-- Every event answers. -/
theorem State.Canonical.event_answers {s : State} (h : s.Canonical) (e : Event) :
    ∃ t, State.event e s = .next t ∧ t.ProgramOk := by
  obtain ⟨-, hprog⟩ := s.canonical_iff.1 h
  cases e with
  | pass =>
    cases hb : s.busy with
    | false => exact ⟨s, State.seqTurn_of_idle hb, hprog⟩
    | true => exact h.seqTurn_answers hb
  | hostWrite sp ix w => exact ⟨_, rfl, hprog.hostWrite sp ix w⟩
  | hostRead sp ix => exact ⟨_, rfl, hprog.noWords, hprog.pcIn, hprog.gathers⟩
  | reset => exact ⟨_, rfl, .of_idle rfl rfl⟩

/-- Settles O29: every event answers a next state that keeps the program's part of the invariant, and every step that
answers keeps the machine's part. -/
theorem hardwareNeverStops : Obligations.HardwareNeverStops := by
  intro s h
  have hrest : State.Canonical { s with inbox := s.inbox.tail } :=
    ⟨⟨h.inv.inst, h.inv.mem, h.inv.flags, h.inv.config⟩, h.noWords, h.pcIn, h.gathers⟩
  obtain ⟨t, ht, hprog⟩ := hrest.event_answers s.nextEvent
  have hstep : step s = .next t := (step_eq_event s).trans ht
  exact ⟨t, hstep, t.canonical_iff.2 ⟨stepKeepsTheInvariant s t h.inv hstep, hprog⟩⟩

end Sys2Proof.Machine
end

section
/-! PROOFS. The exceptions family, the configuration check (60_exceptions.md R181, R183); and a running encode under the
host's transactions (70_reset_and_hazards.md R204, R205; 20_memory.md R63). -/

namespace Sys2Proof.Machine

/-! ## The configuration check -/

theorem runParamBad_iff {v : Word} {hi : Nat} : runParamBad v hi = true ↔ ¬(1 ≤ v.toNat ∧ v.toNat ≤ hi) := by
  rw [← runParamBad_eq_false_iff, Bool.not_eq_false]

theorem State.badSymbol_iff (s : State) : s.badSymbol = true ↔ ∃ p, p < s.n.toNat ∧ s.oorAt p = true := by
  simp [State.badSymbol]

theorem State.cfgCheck_of_no_lanes {s : State} (h0 : s.n.toNat = 0) : s.cfgCheck = 1#4 :=
  if_pos (BitVec.eq_of_toNat_eq h0)

theorem State.cfgCheck_of_too_many {s : State} (h1 : 1 ≤ s.n.toNat) (hn : s.nmax < s.n.toNat) : s.cfgCheck = 2#4 :=
  (if_neg (ne_zero_of_one_le_toNat h1)).trans (if_pos hn)

/-- With a size in range it is the maximum run lengths that are tested next, then the symbols. -/
theorem State.cfgCheck_of_size {s : State} (h1 : 1 ≤ s.n.toNat) (hn : s.n.toNat ≤ s.nmax) :
    s.cfgCheck = if ¬(1 ≤ s.mrn.toNat ∧ s.mrn.toNat ≤ 15) ∨ ¬(1 ≤ s.mrw.toNat ∧ s.mrw.toNat ≤ 4095) then 3#4
      else if s.badSymbol then 4#4 else 0#4 := by
  rw [State.cfgCheck, if_neg (ne_zero_of_one_le_toNat h1), if_neg hn.not_gt, ite_or]
  simp only [runParamBad_iff]

/-- Settles O34: the tests in their order, each reached when the ones before it pass. -/
theorem configurationCheckReportsLowestCause : Obligations.ConfigurationCheckReportsLowestCause := by
  intro s
  refine ⟨State.cfgCheck_of_no_lanes, State.cfgCheck_of_too_many,
    fun h1 hn hbad => (State.cfgCheck_of_size h1 hn).trans (if_pos hbad),
    fun h1 hn hmrn hmrn' hmrw hmrw' => ⟨fun hbad => ?_, fun hgood => ?_⟩⟩
  · rw [State.cfgCheck_of_size h1 hn, if_neg (by omega), if_pos (s.badSymbol_iff.2 hbad)]
  · exact s.cfgCheck_eq_zero_iff.2 ⟨⟨h1, hn⟩, ⟨hmrn, hmrn'⟩, ⟨hmrw, hmrw'⟩, hgood⟩

/-! ## A running encode under the host -/

/-- Settles O37: an event that is not the sequencer's turn is the schedule's, and a harmless one leaves a busy machine as
it was. -/
theorem runningEncodeIgnoresTheHost : Obligations.RunningEncodeIgnoresTheHost := by
  intro s t hb hharmless hpass h
  cases hq : s.inbox with
  | nil =>
    rw [State.nextEvent_of_nil hq] at hpass
    cases hpass
  | cons e rest =>
    rw [State.nextEvent_of_cons hq] at hharmless hpass
    obtain ⟨r, hstep⟩ := step_of_harmless hq hb hharmless hpass
    exact ⟨rest, r, Host.Outcome.next.inj (h.symm.trans hstep)⟩

end Sys2Proof.Machine
end
